-- ==== Sys2Proof/Config.lean ====
section
/-! DEFINITION. What an implementation of the block fixes: the five parameters of 00_scope.md R6. All are OPEN, so no
definition or statement uses a particular value; a machine state carries its own (assumption log 1). -/

namespace Sys2Proof

/-- The five implementation parameters (00_scope.md R6). -/
structure Params where
  /-- `WMAX`: largest register size in bits. -/
  wmax : Nat
  /-- `NR`: number of LFSR registers. -/
  nr : Nat
  /-- `NLANE`: number of combinator lanes. -/
  nlane : Nat
  /-- `LMAX`: capacity in bits of each sequence buffer. -/
  lmax : Nat
  /-- `XW`: width in bits of each operand and of each response value. -/
  xw : Nat
  deriving DecidableEq, Repr

/-- The constraints 00_scope.md R6 puts on the parameters; the last four clauses are
`XW >= max(WMAX + 1, LMAX, 2^NLANE, 16)`. -/
abbrev Params.Valid (p : Params) : Prop :=
  1 ≤ p.wmax ∧ 1 ≤ p.nr ∧ p.nr ≤ 16 ∧ 1 ≤ p.nlane ∧ p.nlane ≤ 16 ∧ 1 ≤ p.lmax ∧
    p.wmax + 1 ≤ p.xw ∧ p.lmax ≤ p.xw ∧ 2 ^ p.nlane ≤ p.xw ∧ 16 ≤ p.xw

/-- The reference configuration of 00_scope.md R6, which the test vectors of 95_test_vectors.md assume. -/
def Params.reference : Params := { wmax := 32, nr := 8, nlane := 8, lmax := 256, xw := 256 }

end Sys2Proof
end

