-- ==== Sys2Proof/Word.lean ====
section
/-! DEFINITION. The fixed-width words of the block: the command word and the status code. Every other value is an
unsigned integer whose width is a parameter or a register's own size, and is a natural number with a stated bound. -/

namespace Sys2Proof

/-- The 16-bit command word `cw` (30_encoding.md R90, R91). -/
abbrev CommandWord := BitVec 16

/-- An 8-bit status code: the response's `status` and the register `FAULT` (60_exceptions.md R270). -/
abbrev StatusCode := BitVec 8

/-- A bit sequence `(len, b)`: `b[0]`, the first generated bit, is the head, and `len` is the list's length, so the
length is part of the value (00_scope.md R8). -/
abbrev BitSeq := List Bool

end Sys2Proof
end

