-- ==== Sys2Proof/Syntax.lean ====
section
/-! DEFINITION. The 29 commands of 30_encoding.md R97 and the packet that carries one (30_encoding.md R90). -/

namespace Sys2Proof

/-- One constructor per row of the opcode table (30_encoding.md R97). `a` is the destination register or lane index and
`b` the source register index, zero-extended 4-bit numbers (R91, R92); a field a command does not use is no argument. -/
inductive Instr where
  | nop
  | stat
  | srst
  | rinit (a : Nat)
  | rinitr (a : Nat)
  | rreset (a b : Nat)
  | rlargest (b : Nat)
  | rout (b : Nat)
  | rnext (a b : Nat)
  | rgenseq (b : Nat)
  | rkeyat (b : Nat)
  | rkey (b : Nat)
  | rcfg (b : Nat)
  | cclr
  | cadd (b : Nat)
  | cmix
  | couts
  | ctick
  | cgenbit
  | cgenseq
  | clane (a : Nat)
  | ksld
  | ksseq
  | ksrd
  | seqrd
  | hamm
  | equ
  | guess (b : Nat)
  | brute (a b : Nat)
  deriving DecidableEq, Repr

/-- The packet the host presents with one command (30_encoding.md R90): the command word, the operands `X`, `Y`, `Z` and
the random input `rnd`. The four operands are unsigned integers of `XW` bits (R92; `Packet.fits`). -/
structure Packet where
  cw : CommandWord
  x : Nat
  y : Nat
  z : Nat
  rnd : Nat
  deriving DecidableEq, Repr

end Sys2Proof
end

