-- ==== Sys2Proof/WellFormed.lean ====
section
/-! DEFINITION. Which commands and packets can stand on the command port: index fields of four bits (30_encoding.md R91)
and operands of `XW` bits (30_encoding.md R92). -/

namespace Sys2Proof

/-- An index fits its 4-bit field of the command word (30_encoding.md R91). -/
def indexFits (n : Nat) : Bool := decide (n < 16)

/-- Every index field the command uses is a 4-bit number (30_encoding.md R91). Whether it names a register or a lane
that exists is no matter of form: the command itself tests that (R93). -/
def Instr.wellFormed : Instr → Bool
  | .nop => true
  | .stat => true
  | .srst => true
  | .rinit a => indexFits a
  | .rinitr a => indexFits a
  | .rreset a b => indexFits a && indexFits b
  | .rlargest b => indexFits b
  | .rout b => indexFits b
  | .rnext a b => indexFits a && indexFits b
  | .rgenseq b => indexFits b
  | .rkeyat b => indexFits b
  | .rkey b => indexFits b
  | .rcfg b => indexFits b
  | .cclr => true
  | .cadd b => indexFits b
  | .cmix => true
  | .couts => true
  | .ctick => true
  | .cgenbit => true
  | .cgenseq => true
  | .clane a => indexFits a
  | .ksld => true
  | .ksseq => true
  | .ksrd => true
  | .seqrd => true
  | .hamm => true
  | .equ => true
  | .guess b => indexFits b
  | .brute a b => indexFits a && indexFits b

/-- Every operand is an `XW`-bit unsigned integer (30_encoding.md R92). A packet that does not fit cannot be presented
(93_implementation_defined.md U21). -/
def Packet.fits (ps : Params) (p : Packet) : Bool :=
  decide (p.x < 2 ^ ps.xw) && decide (p.y < 2 ^ ps.xw) && decide (p.z < 2 ^ ps.xw) && decide (p.rnd < 2 ^ ps.xw)

end Sys2Proof
end

