-- ==== Sys2Proof/Decode.lean ====
section
/-! DEFINITION. The decoder of 30_encoding.md R98, total on all 65536 command words, the encoder of R91 and R97, and the
opcode map of R97 as match and mask rows. -/

namespace Sys2Proof

/-- The field `op`, bits 15 to 8 (30_encoding.md R91). -/
def opField (cw : CommandWord) : Nat := (cw.extractLsb 15 8).toNat

/-- The field `a`, bits 7 to 4 (30_encoding.md R91). -/
def aField (cw : CommandWord) : Nat := (cw.extractLsb 7 4).toNat

/-- The field `b`, bits 3 to 0 (30_encoding.md R91). -/
def bField (cw : CommandWord) : Nat := (cw.extractLsb 3 0).toNat

/-- Why a command word is no command (30_encoding.md R98, R99). -/
inductive IllegalWord where
  /-- No row of the opcode map has this `op`. -/
  | unassignedOpcode
  /-- The row's form does not use an index field that is not 0. -/
  | unusedFieldNonzero
  deriving DecidableEq, Repr

/-- What a command word is: exactly one command, or illegal (30_encoding.md R98). -/
inductive Decoded where
  | command (i : Instr)
  | illegal (why : IllegalWord)
  deriving DecidableEq, Repr

/-- Form `C0`: neither index is used, so both fields must be 0 (30_encoding.md R91). -/
def formC0 (cw : CommandWord) (i : Instr) : Decoded :=
  if aField cw = 0 ∧ bField cw = 0 then .command i else .illegal .unusedFieldNonzero

/-- Form `CA`: `a` is used and `b` must be 0 (30_encoding.md R91). -/
def formCA (cw : CommandWord) (mk : Nat → Instr) : Decoded :=
  if bField cw = 0 then .command (mk (aField cw)) else .illegal .unusedFieldNonzero

/-- Form `CB`: `b` is used and `a` must be 0 (30_encoding.md R91). -/
def formCB (cw : CommandWord) (mk : Nat → Instr) : Decoded :=
  if aField cw = 0 then .command (mk (bField cw)) else .illegal .unusedFieldNonzero

/-- Form `CAB`: both indices are used (30_encoding.md R91). -/
def formCAB (cw : CommandWord) (mk : Nat → Nat → Instr) : Decoded :=
  .command (mk (aField cw) (bField cw))

/-- Decoding (30_encoding.md R98): look `op` up in the opcode map, then test the unused index fields. -/
def decode (cw : CommandWord) : Decoded :=
  match opField cw with
  | 0x00 => formC0 cw .nop
  | 0x01 => formC0 cw .stat
  | 0x02 => formC0 cw .srst
  | 0x10 => formCA cw .rinit
  | 0x11 => formCA cw .rinitr
  | 0x12 => formCAB cw .rreset
  | 0x13 => formCB cw .rlargest
  | 0x14 => formCB cw .rout
  | 0x15 => formCAB cw .rnext
  | 0x16 => formCB cw .rgenseq
  | 0x17 => formCB cw .rkeyat
  | 0x18 => formCB cw .rkey
  | 0x19 => formCB cw .rcfg
  | 0x20 => formC0 cw .cclr
  | 0x21 => formCB cw .cadd
  | 0x22 => formC0 cw .cmix
  | 0x23 => formC0 cw .couts
  | 0x24 => formC0 cw .ctick
  | 0x25 => formC0 cw .cgenbit
  | 0x26 => formC0 cw .cgenseq
  | 0x27 => formCA cw .clane
  | 0x30 => formC0 cw .ksld
  | 0x31 => formC0 cw .ksseq
  | 0x32 => formC0 cw .ksrd
  | 0x33 => formC0 cw .seqrd
  | 0x34 => formC0 cw .hamm
  | 0x35 => formC0 cw .equ
  | 0x40 => formCB cw .guess
  | 0x41 => formCAB cw .brute
  | _ => .illegal .unassignedOpcode

/-- The opcode of a command (30_encoding.md R97, column `op`). -/
def Instr.op : Instr → Nat
  | .nop => 0x00
  | .stat => 0x01
  | .srst => 0x02
  | .rinit _ => 0x10
  | .rinitr _ => 0x11
  | .rreset _ _ => 0x12
  | .rlargest _ => 0x13
  | .rout _ => 0x14
  | .rnext _ _ => 0x15
  | .rgenseq _ => 0x16
  | .rkeyat _ => 0x17
  | .rkey _ => 0x18
  | .rcfg _ => 0x19
  | .cclr => 0x20
  | .cadd _ => 0x21
  | .cmix => 0x22
  | .couts => 0x23
  | .ctick => 0x24
  | .cgenbit => 0x25
  | .cgenseq => 0x26
  | .clane _ => 0x27
  | .ksld => 0x30
  | .ksseq => 0x31
  | .ksrd => 0x32
  | .seqrd => 0x33
  | .hamm => 0x34
  | .equ => 0x35
  | .guess _ => 0x40
  | .brute _ _ => 0x41

/-- The value of field `a` in a command's word: its destination or lane index, 0 where the form does not use `a`
(30_encoding.md R91). -/
def Instr.fieldA : Instr → Nat
  | .rinit a => a
  | .rinitr a => a
  | .rreset a _ => a
  | .rnext a _ => a
  | .clane a => a
  | .brute a _ => a
  | .nop | .stat | .srst | .rlargest _ | .rout _ | .rgenseq _ | .rkeyat _ | .rkey _ | .rcfg _ => 0
  | .cclr | .cadd _ | .cmix | .couts | .ctick | .cgenbit | .cgenseq => 0
  | .ksld | .ksseq | .ksrd | .seqrd | .hamm | .equ | .guess _ => 0

/-- The value of field `b` in a command's word: its source index, 0 where the form does not use `b`
(30_encoding.md R91). -/
def Instr.fieldB : Instr → Nat
  | .rreset _ b => b
  | .rlargest b => b
  | .rout b => b
  | .rnext _ b => b
  | .rgenseq b => b
  | .rkeyat b => b
  | .rkey b => b
  | .rcfg b => b
  | .cadd b => b
  | .guess b => b
  | .brute _ b => b
  | .nop | .stat | .srst | .rinit _ | .rinitr _ | .cclr | .cmix | .couts | .ctick | .cgenbit | .cgenseq => 0
  | .clane _ | .ksld | .ksseq | .ksrd | .seqrd | .hamm | .equ => 0

/-- The command word of a command: `cw = op * 256 + a * 16 + b` (30_encoding.md R91). -/
def encode (i : Instr) : CommandWord := BitVec.ofNat 16 (i.op * 256 + i.fieldA * 16 + i.fieldB)

/-- The mnemonic of a command (30_encoding.md R97). -/
def Instr.mnemonic : Instr → String
  | .nop => "NOP"
  | .stat => "STAT"
  | .srst => "SRST"
  | .rinit _ => "RINIT"
  | .rinitr _ => "RINITR"
  | .rreset _ _ => "RRESET"
  | .rlargest _ => "RLARGEST"
  | .rout _ => "ROUT"
  | .rnext _ _ => "RNEXT"
  | .rgenseq _ => "RGENSEQ"
  | .rkeyat _ => "RKEYAT"
  | .rkey _ => "RKEY"
  | .rcfg _ => "RCFG"
  | .cclr => "CCLR"
  | .cadd _ => "CADD"
  | .cmix => "CMIX"
  | .couts => "COUTS"
  | .ctick => "CTICK"
  | .cgenbit => "CGENBIT"
  | .cgenseq => "CGENSEQ"
  | .clane _ => "CLANE"
  | .ksld => "KSLD"
  | .ksseq => "KSSEQ"
  | .ksrd => "KSRD"
  | .seqrd => "SEQRD"
  | .hamm => "HAMM"
  | .equ => "EQU"
  | .guess _ => "GUESS"
  | .brute _ _ => "BRUTE"

/-- One row of the opcode map: a word `w` is the command when `w & mask = match` (30_encoding.md R97). -/
structure OpcodeRow where
  mnemonic : String
  pattern : CommandWord
  mask : CommandWord
  deriving DecidableEq, Repr

/-- The `match` and `mask` columns of 30_encoding.md R97, row by row. -/
def opcodeTable : List OpcodeRow :=
  [⟨"NOP", 0x0000, 0xFFFF⟩, ⟨"STAT", 0x0100, 0xFFFF⟩, ⟨"SRST", 0x0200, 0xFFFF⟩] ++
  [⟨"RINIT", 0x1000, 0xFF0F⟩, ⟨"RINITR", 0x1100, 0xFF0F⟩, ⟨"RRESET", 0x1200, 0xFF00⟩, ⟨"RLARGEST", 0x1300, 0xFFF0⟩,
   ⟨"ROUT", 0x1400, 0xFFF0⟩, ⟨"RNEXT", 0x1500, 0xFF00⟩, ⟨"RGENSEQ", 0x1600, 0xFFF0⟩, ⟨"RKEYAT", 0x1700, 0xFFF0⟩,
   ⟨"RKEY", 0x1800, 0xFFF0⟩, ⟨"RCFG", 0x1900, 0xFFF0⟩] ++
  [⟨"CCLR", 0x2000, 0xFFFF⟩, ⟨"CADD", 0x2100, 0xFFF0⟩, ⟨"CMIX", 0x2200, 0xFFFF⟩, ⟨"COUTS", 0x2300, 0xFFFF⟩,
   ⟨"CTICK", 0x2400, 0xFFFF⟩, ⟨"CGENBIT", 0x2500, 0xFFFF⟩, ⟨"CGENSEQ", 0x2600, 0xFFFF⟩, ⟨"CLANE", 0x2700, 0xFF0F⟩] ++
  [⟨"KSLD", 0x3000, 0xFFFF⟩, ⟨"KSSEQ", 0x3100, 0xFFFF⟩, ⟨"KSRD", 0x3200, 0xFFFF⟩, ⟨"SEQRD", 0x3300, 0xFFFF⟩,
   ⟨"HAMM", 0x3400, 0xFFFF⟩, ⟨"EQU", 0x3500, 0xFFFF⟩] ++
  [⟨"GUESS", 0x4000, 0xFFF0⟩, ⟨"BRUTE", 0x4100, 0xFF00⟩]

/-- The command the decoder reads from a word, if it reads one. -/
def Decoded.command? : Decoded → Option Instr
  | .command i => some i
  | .illegal _ => none

/-- The command the decoder reads from a table row's bits `w`. Every row is one 16-bit word (30_encoding.md R100), which
is the whole of the packet that decoding reads; a longer or wider `w` is no command word. -/
def decodeTableWord (nbits w : Nat) : Option Instr :=
  if nbits ≤ 16 ∧ w < 2 ^ 16 then (decode (BitVec.ofNat 16 w)).command? else none

end Sys2Proof
end

