-- ==== Sys2Proof/Machine/State.lean ====
section
/-! DEFINITION. The state of the block: the components of 10_state.md R20, and beside them the model's own fields for
the inputs and outputs of a step (10_state.md R45) and for the parameters of the instance (00_scope.md R6). -/

namespace Sys2Proof.Machine

/-- CADOC's Register triple: an LFSR register's contents, or one combinator lane (10_state.md R21, R30). -/
structure Reg where
  size : Nat
  mask : Nat
  key : Nat
  deriving DecidableEq, Repr

/-- A stored mixing function: its parameter count and its truth table of `2^arity` bits (10_state.md R32). -/
structure MixFn where
  arity : Nat
  tt : Nat
  deriving DecidableEq, Repr

/-- The response that ends a command: `status`, `R0`, `R1`, `R2` (30_encoding.md R94). -/
structure Response where
  status : StatusCode
  r0 : Nat
  r1 : Nat
  r2 : Nat
  deriving DecidableEq, Repr

/-- The eight faults of 60_exceptions.md R270. A fault is a response of the block, which goes on (R281). -/
inductive Cause where
  | invalidKey
  | notConfigured
  | arityMismatch
  | invalidConfig
  | illegalCommand
  | outOfRange
  | notLoaded
  | lengthMismatch
  deriving DecidableEq, Repr

/-- What the host does to the block (00_scope.md R5, 70_reset_and_hazards.md R310). -/
inductive HostEvent where
  /-- A command is presented on the command port. -/
  | command (p : Packet)
  /-- The reset input is asserted between two commands. -/
  | reset
  /-- The reset input is asserted while this command is executing, which abandons the command. -/
  | commandCutByReset (p : Packet)
  deriving DecidableEq, Repr

/-- The whole machine. The first block of fields is the architectural state of 10_state.md R20, and nothing else is. -/
structure State where
  /-- `L[0..NR-1]`: `some r` is `valid = 1` with the triple `r`, `none` is `valid = 0`, of which nothing more can be
  observed (10_state.md R21, R25). -/
  regs : List (Option Reg)
  /-- `lane[0..count-1]` in registration order; `count` is the length (10_state.md R30, R31). -/
  lanes : List Reg
  /-- `mix_set`, `arity`, `tt`: `none` is `mix_set = 0` (10_state.md R32). -/
  mix : Option MixFn
  /-- `SEQ`: `none` is `seq_valid = 0`; `seq_len` is the list's length (10_state.md R36). -/
  seq : Option BitSeq
  /-- `KS`: `none` is `ks_valid = 0`; `ks_len` is the list's length (10_state.md R37). -/
  ks : Option BitSeq
  /-- `FAULT`: status code of the first fault since reset, or 0 (10_state.md R40). -/
  fault : StatusCode
  /-- `FAULT_CW`: command word of the command that set `FAULT`, or 0 (10_state.md R41). -/
  faultCw : CommandWord
  /-- MODEL: the parameters of this block, fixed for its life (00_scope.md R6; assumption log 1). -/
  params : Params
  /-- MODEL: the packet on the command port, the inputs of the step (10_state.md R45; assumption log 4). -/
  port : Packet
  /-- MODEL: the response of the last command, none since a reset (10_state.md R45; assumption log 3). -/
  resp : Option Response
  /-- MODEL: what the host will do, first event first (00_scope.md R5; assumption log 2). -/
  host : List HostEvent
  deriving DecidableEq, Repr

/-- The reasons the machine stops with a fault: there are none. A fault of this block is a response, after which it
accepts the next command (60_exceptions.md R280, R281), and every command ends (70_reset_and_hazards.md R331). -/
inductive Fault : Type
  deriving DecidableEq, Repr

/-- The reasons a step has no meaning. -/
inductive Refusal where
  /-- Raised by an arm of `exec` whose command has no meaning yet; no arm is one now. Safe: the model stops. -/
  | notModelled (mnemonic : String)
  /-- Raised by the step when a packet has an operand of `2^XW` or more, which the ports cannot carry and for which
  93_implementation_defined.md U21 says `refuse`. Safe: the block never sees such a packet. -/
  | operandTooWide
  deriving DecidableEq, Repr

/-- What one command or one step answers. -/
abbrev Result := Host.Outcome State Fault Refusal

/-- The packet on the command port before the first command (assumption log 4). -/
def idlePacket : Packet := { cw := 0, x := 0, y := 0, z := 0, rnd := 0 }

/-- A block with parameters `p` right after a reset: the values of 10_state.md R50, no response yet and no host event. -/
def State.resetOf (p : Params) : State where
  regs := List.replicate p.nr none
  lanes := []
  mix := none
  seq := none
  ks := none
  fault := 0
  faultCw := 0
  params := p
  port := idlePacket
  resp := none
  host := []

/-- The block in the reference configuration right after a reset (10_state.md R50; assumption log 1). -/
def State.reset : State := State.resetOf Params.reference

end Sys2Proof.Machine
end

