-- ==== Sys2Proof/Machine/Functions.lean ====
section
/-! DEFINITION. The pure functions of 00_scope.md R10 and of the searches: bit sequences as integers, the register step,
the combinator step, the comparator and the two key searches. -/

namespace Sys2Proof.Machine

/-- A bit as the integer 0 or 1. -/
def bitVal (b : Bool) : Nat := if b then 1 else 0

/-- `trunc_n(v) = v mod 2^n` (00_scope.md R7). -/
def trunc (n v : Nat) : Nat := v % 2 ^ n

/-- `SeqVal`: the integer of a bit sequence, the first bit most significant (00_scope.md R8). -/
def seqVal (bs : BitSeq) : Nat := bs.foldl (fun v b => 2 * v + bitVal b) 0

/-- `SeqOf(len, v)`: the sequence of `len` bits with integer `v`, `b[j] = bit(v, len-1-j)` (00_scope.md R8). -/
def seqOf (len v : Nat) : BitSeq := (List.range len).map (fun j => v.testBit (len - 1 - j))

/-- `LargestKey(s) = 2^s - 1` (40_register.md R120). -/
def largestKey (s : Nat) : Nat := 2 ^ s - 1

/-- `OutBit(s, k)`: bit `s-1` of `k` (40_register.md R121). -/
def outBit (s k : Nat) : Bool := k.testBit (s - 1)

/-- `Next(s, m, k)`: the successor key (40_register.md R122). -/
def nextKey (s m k : Nat) : Nat :=
  if outBit s k then trunc s (k <<< 1) ^^^ m else trunc s (k <<< 1)

/-- `RegSeq(s, m, k, n)`: the `n`-bit output sequence of a register (40_register.md R124). -/
def regSeq (s m k : Nat) : Nat → BitSeq
  | 0 => []
  | n + 1 => outBit s k :: regSeq s m (nextKey s m k) n

/-- `AllKeys(s)`: `1, 2, ..., 2^s - 1`, ascending (40_register.md R125). -/
def allKeys (s : Nat) : List Nat := List.range' 1 (largestKey s)

/-- The register after one step: size and mask stay (40_register.md R122). -/
def Reg.next (r : Reg) : Reg := { r with key := nextKey r.size r.mask r.key }

/-- `OutBits(lane, count)`: the lanes' output bits in registration order (41_combinator.md R160). -/
def outBits (lanes : List Reg) : List Bool := lanes.map (fun r => outBit r.size r.key)

/-- The packing of a list of lane bits into one integer, lane `i` at bit `i` (41_combinator.md R160, R161). -/
def packBits : List Bool → Nat
  | [] => 0
  | b :: bs => bitVal b + 2 * packBits bs

/-- `Mix(arity, tt, x)`: the truth table's entry at the packing of `x` (41_combinator.md R161). -/
def MixFn.apply (f : MixFn) (x : List Bool) : Bool := f.tt.testBit (packBits x)

/-- `TickAll(lane, count)`: every lane replaced by its successor (41_combinator.md R162). -/
def tickAll (lanes : List Reg) : List Reg := lanes.map Reg.next

/-- `CombSeq`: `n` generated bits, each from the lanes before its tick, and the lanes after them (41_combinator.md R163). -/
def combSeq (lanes : List Reg) (f : MixFn) : Nat → BitSeq × List Reg
  | 0 => ([], lanes)
  | n + 1 =>
    let rest := combSeq (tickAll lanes) f n
    (f.apply (outBits lanes) :: rest.1, rest.2)

/-- `Hamming(p, q)`: the number of positions at which two sequences of one length differ (42_comparator.md R200). -/
def hamming (p q : BitSeq) : Nat := (p.zip q).countP (fun x => x.1 != x.2)

/-- `SeqEq(p, q)`: equality of sequences, length included (42_comparator.md R201). -/
def seqEq (p q : BitSeq) : Bool := p == q

/-- The Hamming distance of key `k`'s own output sequence to the keystream (43_search.md R231). -/
def keyDistance (s m : Nat) (ks : BitSeq) (k : Nat) : Nat := hamming (regSeq s m k ks.length) ks

/-- One pass of `GuessKey`'s loop: a strictly smaller distance replaces the best, so the earlier key keeps a tie
(43_search.md R231). -/
def guessStep (s m : Nat) (ks : BitSeq) (best : Nat × Nat) (k : Nat) : Nat × Nat :=
  if keyDistance s m ks k < best.2 then (k, keyDistance s m ks k) else best

/-- `GuessKey(s, m, ks)`: the best key and its distance, every key of `AllKeys(s)` tried in ascending order
(43_search.md R231). The first pass, with no best yet, always takes key 1, the first of the list (40_register.md R125),
so the loop is written from there. -/
def guessKey (s m : Nat) (ks : BitSeq) : Nat × Nat :=
  (allKeys s).tail.foldl (guessStep s m ks) (1, keyDistance s m ks 1)

/-- `BruteForceKey(s, m, ks, Builder)`: the first key, ascending, whose combinator reproduces the keystream, or none
(43_search.md R235). -/
def bruteForceKey (s m : Nat) (ks : BitSeq) (builder : Reg → List Reg × MixFn) : Option Nat :=
  (allKeys s).find? (fun k =>
    let c := builder { size := s, mask := m, key := k }
    seqEq (combSeq c.1 c.2 ks.length).1 ks)

/-- The block's builder: its own combinator with lane `t` replaced by the candidate (43_search.md R236). -/
def substituteLane (lanes : List Reg) (f : MixFn) (t : Nat) (r : Reg) : List Reg × MixFn := (lanes.set t r, f)

end Sys2Proof.Machine
end

