-- ==== Sys2Proof/Machine/Ops.lean ====
section
/-! DEFINITION. The named operations over the state: reading and writing registers, buffers and the combinator, ending a
command with a response, raising a fault, and the reset. -/

namespace Sys2Proof.Machine

/-- The status code of a fault (60_exceptions.md R270). -/
def Cause.code : Cause → StatusCode
  | .invalidKey => 1
  | .notConfigured => 2
  | .arityMismatch => 3
  | .invalidConfig => 4
  | .illegalCommand => 5
  | .outOfRange => 6
  | .notLoaded => 7
  | .lengthMismatch => 8

/-- `L[i]` where `L[i].valid = 1`, none where it is 0 (10_state.md R25). -/
def State.reg (s : State) (i : Nat) : Option Reg := (s.regs[i]?).join

/-- `L[i] <- r`, which sets `L[i].valid` (00_scope.md R9). -/
def State.setReg (s : State) (i : Nat) (r : Reg) : State := { s with regs := s.regs.set i (some r) }

/-- `count`: the number of lanes in use (10_state.md R31). -/
abbrev State.count (s : State) : Nat := s.lanes.length

/-- The lanes replaced as a whole. -/
def State.setLanes (s : State) (lanes : List Reg) : State := { s with lanes := lanes }

/-- `arity`, `tt` stored and `mix_set <- 1` (41_combinator.md R172). -/
def State.setMix (s : State) (f : MixFn) : State := { s with mix := some f }

/-- `count <- 0; mix_set <- 0`: a new combinator (41_combinator.md R170). -/
def State.clearCombinator (s : State) : State := { s with lanes := [], mix := none }

/-- `SEQ <- (len, b)`, which sets `seq_valid` (00_scope.md R9). -/
def State.setSeq (s : State) (b : BitSeq) : State := { s with seq := some b }

/-- `KS <- (len, b)`, which sets `ks_valid` (00_scope.md R9). -/
def State.setKs (s : State) (b : BitSeq) : State := { s with ks := some b }

/-- The state with `respond(r0, r1, r2)`'s response: status `OK` (00_scope.md R9, 30_encoding.md R94). -/
def State.answered (s : State) (r0 r1 r2 : Nat) : State := { s with resp := some ⟨0, r0, r1, r2⟩ }

/-- `respond(r0, r1, r2)`: the command ends with status `OK` (00_scope.md R9). -/
def respond (r0 r1 r2 : Nat) (s : State) : Result := .next (s.answered r0 r1 r2)

/-- Fault entry (60_exceptions.md R280): `FAULT` and `FAULT_CW` record the fault if none is recorded, the response is
the code with values 0, and nothing else changes. -/
def State.faulted (s : State) (c : Cause) : State :=
  { s with
    fault := if s.fault = 0 then c.code else s.fault
    faultCw := if s.fault = 0 then s.port.cw else s.faultCw
    resp := some ⟨c.code, 0, 0, 0⟩ }

/-- `raise <Fault>`: the command ends with that fault (00_scope.md R9). -/
def raise (c : Cause) (s : State) : Result := .next (s.faulted c)

/-- The reset state of 10_state.md R50 in a block that keeps its parameters and its ports: what the reset input and
`SRST` do to the architectural state (70_reset_and_hazards.md R310). -/
def State.cleared (s : State) : State :=
  { s with
    regs := List.replicate s.params.nr none
    lanes := []
    mix := none
    seq := none
    ks := none
    fault := 0
    faultCw := 0 }

/-- The reset input: the reset state and no response (70_reset_and_hazards.md R310). -/
def State.resetInput (s : State) : State := { s.cleared with resp := none }

/-- `CheckConfigured()`: the stored mixing function, or `NotConfigured` (41_combinator.md R164). -/
def State.configured (s : State) : Except Cause MixFn :=
  if s.count = 0 then .error .notConfigured
  else
    match s.mix with
    | none => .error .notConfigured
    | some f => .ok f

/-- `CheckConfigured()` and then `CheckArity()`: the mixing function that can be applied to the lanes, or the fault
(41_combinator.md R164). -/
def State.applicable (s : State) : Except Cause MixFn :=
  match s.configured with
  | .error c => .error c
  | .ok f => if f.arity = s.count then .ok f else .error .arityMismatch

end Sys2Proof.Machine
end

