-- ==== Sys2Proof/Machine/Operands.lean ====
section
/-! DEFINITION. The operands of the current command: the ports `X`, `Y`, `Z`, `rnd`, taken as they are, with no extension,
scaling or shift (30_encoding.md R92, R101), and the tests of an operand against the domain a command gives it. -/

namespace Sys2Proof.Machine

/-- Operand `X` (30_encoding.md R92). -/
abbrev State.x (s : State) : Nat := s.port.x

/-- Operand `Y` (30_encoding.md R92). -/
abbrev State.y (s : State) : Nat := s.port.y

/-- Operand `Z` (30_encoding.md R92). -/
abbrev State.z (s : State) : Nat := s.port.z

/-- The random input, a draw of the host's (40_register.md R126). -/
abbrev State.rnd (s : State) : Nat := s.port.rnd

/-- A register index beyond `NR-1` (60_exceptions.md R276). -/
abbrev State.NoRegister (s : State) (i : Nat) : Prop := s.params.nr ≤ i

/-- A lane index beyond the lanes in use (60_exceptions.md R276). -/
abbrev State.NoLane (s : State) (i : Nat) : Prop := s.count ≤ i

/-- A sequence length beyond the buffers' capacity (60_exceptions.md R276). -/
abbrev State.TooLong (s : State) (n : Nat) : Prop := s.params.lmax < n

/-- A register size outside `1..WMAX` (60_exceptions.md R274). -/
abbrev State.BadSize (s : State) (n : Nat) : Prop := n = 0 ∨ s.params.wmax < n

end Sys2Proof.Machine
end

