-- ==== Sys2Proof/Machine/Combinator.lean ====
section
/-! DEFINITION. The Combinator family, 41_combinator.md R170 to R177: one meaning per command, its tests in the rule's
order. -/

namespace Sys2Proof.Machine

/-- `CCLR`: a new, unconfigured combinator (41_combinator.md R170). -/
def execCclr (s : State) : Result := respond 0 0 0 s.clearCombinator

/-- `CADD b`: a copy of the register becomes the next lane (41_combinator.md R171). -/
def execCadd (b : Nat) (s : State) : Result :=
  if s.NoRegister b ∨ s.count = s.params.nlane then raise .outOfRange s
  else
    match s.reg b with
    | none => raise .notLoaded s
    | some r => respond (s.count + 1) 0 0 (s.setLanes (s.lanes ++ [r]))

/-- `CMIX`: store the mixing function (41_combinator.md R172). -/
def execCmix (s : State) : Result :=
  if s.params.nlane < s.x then raise .outOfRange s
  else if 2 ^ 2 ^ s.x ≤ s.y then raise .invalidConfig s
  else respond 0 0 0 (s.setMix ⟨s.x, s.y⟩)

/-- `COUTS`: the lanes' output bits, packed; the lanes do not advance (41_combinator.md R173). -/
def execCouts (s : State) : Result := respond (packBits (outBits s.lanes)) s.count 0 s

/-- `CTICK`: every lane steps once; the arity is not compared (41_combinator.md R174). -/
def execCtick (s : State) : Result :=
  match s.configured with
  | .error c => raise c s
  | .ok _ => respond 0 0 0 (s.setLanes (tickAll s.lanes))

/-- `CGENBIT`: the mixed bit of the lanes before the tick, and the tick (41_combinator.md R175). -/
def execCgenbit (s : State) : Result :=
  match s.applicable with
  | .error c => raise c s
  | .ok f => respond (bitVal (f.apply (outBits s.lanes))) 0 0 (s.setLanes (tickAll s.lanes))

/-- `CGENSEQ`: `X` mixed bits into `SEQ`, the lanes advanced `X` times; a length of 0 makes no configuration test
(41_combinator.md R176). -/
def execCgenseq (s : State) : Result :=
  if s.TooLong s.x then raise .outOfRange s
  else if s.x = 0 then respond 0 0 0 (s.setSeq [])
  else
    match s.applicable with
    | .error c => raise c s
    | .ok f =>
      let g := combSeq s.lanes f s.x
      respond (seqVal g.1) g.1.length 0 ((s.setLanes g.2).setSeq g.1)

/-- `CLANE a`: read one lane (41_combinator.md R177). -/
def execClane (a : Nat) (s : State) : Result :=
  match s.lanes[a]? with
  | none => raise .outOfRange s
  | some r => respond r.key r.size r.mask s

end Sys2Proof.Machine
end

