-- ==== Sys2Proof/Machine/Comparator.lean ====
section
/-! DEFINITION. The Comparator family, 42_comparator.md R210 to R215: one meaning per command, its tests in the rule's
order. -/

namespace Sys2Proof.Machine

/-- `KSLD`: load the known keystream from the operands (42_comparator.md R210). -/
def execKsld (s : State) : Result :=
  if s.TooLong s.x then raise .outOfRange s
  else if 2 ^ s.x ≤ s.y then raise .invalidConfig s
  else respond 0 0 0 (s.setKs (seqOf s.x s.y))

/-- `KSSEQ`: the last generated sequence becomes the known keystream (42_comparator.md R211). -/
def execKsseq (s : State) : Result :=
  match s.seq with
  | none => raise .notLoaded s
  | some q => respond 0 q.length 0 (s.setKs q)

/-- `KSRD`: read the known keystream (42_comparator.md R212). -/
def execKsrd (s : State) : Result :=
  match s.ks with
  | none => raise .notLoaded s
  | some k => respond (seqVal k) k.length 0 s

/-- `SEQRD`: read the last generated sequence (42_comparator.md R213). -/
def execSeqrd (s : State) : Result :=
  match s.seq with
  | none => raise .notLoaded s
  | some q => respond (seqVal q) q.length 0 s

/-- `SEQ` and `KS` ready to be compared: both valid, then of one length (42_comparator.md R214, R215). -/
def State.comparable (s : State) : Except Cause (BitSeq × BitSeq) :=
  match s.seq, s.ks with
  | some q, some k => if q.length = k.length then .ok (q, k) else .error .lengthMismatch
  | _, _ => .error .notLoaded

/-- `HAMM`: the Hamming distance between `SEQ` and `KS` (42_comparator.md R214). -/
def execHamm (s : State) : Result :=
  match s.comparable with
  | .error c => raise c s
  | .ok (q, k) => respond (hamming q k) q.length 0 s

/-- `EQU`: exact equality of `SEQ` and `KS` (42_comparator.md R215). -/
def execEqu (s : State) : Result :=
  match s.comparable with
  | .error c => raise c s
  | .ok (q, k) => respond (bitVal (seqEq q k)) 0 0 s

end Sys2Proof.Machine
end

