-- ==== Sys2Proof/Machine/Register.lean ====
section
/-! DEFINITION. The Register family, 40_register.md R130 to R139: one meaning per command, its tests in the rule's order. -/

namespace Sys2Proof.Machine

/-- `RINIT a`: construct a register with an explicit key (40_register.md R130). -/
def execRinit (a : Nat) (s : State) : Result :=
  if s.NoRegister a then raise .outOfRange s
  else if s.BadSize s.x then raise .invalidConfig s
  else if 2 ^ s.x ≤ s.y then raise .invalidConfig s
  else if largestKey s.x < s.z then raise .invalidKey s
  else respond 0 0 0 (s.setReg a ⟨s.x, s.y, s.z⟩)

/-- `RINITR a`: construct a register with the key `trunc_X(rnd)` (40_register.md R131). -/
def execRinitr (a : Nat) (s : State) : Result :=
  if s.NoRegister a then raise .outOfRange s
  else if s.BadSize s.x then raise .invalidConfig s
  else if 2 ^ s.x ≤ s.y then raise .invalidConfig s
  else respond (trunc s.x s.rnd) 0 0 (s.setReg a ⟨s.x, s.y, trunc s.x s.rnd⟩)

/-- `RRESET a, b`: same size and mask, new key (40_register.md R132). -/
def execRreset (a b : Nat) (s : State) : Result :=
  if s.NoRegister a ∨ s.NoRegister b then raise .outOfRange s
  else
    match s.reg b with
    | none => raise .notLoaded s
    | some r =>
      if largestKey r.size < s.x then raise .invalidKey s
      else respond 0 0 0 (s.setReg a ⟨r.size, r.mask, s.x⟩)

/-- `RLARGEST b`: the largest key of a register (40_register.md R133). -/
def execRlargest (b : Nat) (s : State) : Result :=
  if s.NoRegister b then raise .outOfRange s
  else
    match s.reg b with
    | none => raise .notLoaded s
    | some r => respond (largestKey r.size) 0 0 s

/-- `ROUT b`: the output bit of a register, which is not stepped (40_register.md R134). -/
def execRout (b : Nat) (s : State) : Result :=
  if s.NoRegister b then raise .outOfRange s
  else
    match s.reg b with
    | none => raise .notLoaded s
    | some r => respond (bitVal (outBit r.size r.key)) 0 0 s

/-- `RNEXT a, b`: one step of the register (40_register.md R135). -/
def execRnext (a b : Nat) (s : State) : Result :=
  if s.NoRegister a ∨ s.NoRegister b then raise .outOfRange s
  else
    match s.reg b with
    | none => raise .notLoaded s
    | some r => respond r.next.key 0 0 (s.setReg a r.next)

/-- `RGENSEQ b`: the register's own output sequence into `SEQ`; the register stays (40_register.md R136). -/
def execRgenseq (b : Nat) (s : State) : Result :=
  if s.NoRegister b ∨ s.TooLong s.x then raise .outOfRange s
  else
    match s.reg b with
    | none => raise .notLoaded s
    | some r =>
      let out := regSeq r.size r.mask r.key s.x
      respond (seqVal out) out.length 0 (s.setSeq out)

/-- `RKEYAT b`: the `X`-th key of the register's key list, or absent (40_register.md R137). -/
def execRkeyat (b : Nat) (s : State) : Result :=
  if s.NoRegister b then raise .outOfRange s
  else
    match s.reg b with
    | none => raise .notLoaded s
    | some r => if s.x < largestKey r.size then respond (s.x + 1) 1 0 s else respond 0 0 0 s

/-- `RKEY b`: read the key field (40_register.md R138). -/
def execRkey (b : Nat) (s : State) : Result :=
  if s.NoRegister b then raise .outOfRange s
  else
    match s.reg b with
    | none => raise .notLoaded s
    | some r => respond r.key 0 0 s

/-- `RCFG b`: read the size and mask fields (40_register.md R139). -/
def execRcfg (b : Nat) (s : State) : Result :=
  if s.NoRegister b then raise .outOfRange s
  else
    match s.reg b with
    | none => raise .notLoaded s
    | some r => respond r.size r.mask 0 s

end Sys2Proof.Machine
end

