-- ==== Sys2Proof/Machine/Search.lean ====
section
/-! DEFINITION. The Search family, 43_search.md R232 and R237: the two key searches, which write no state but the response. -/

namespace Sys2Proof.Machine

/-- `GUESS b`: the smallest key whose own sequence is nearest to `KS`, and its distance (43_search.md R232). -/
def execGuess (b : Nat) (s : State) : Result :=
  if s.NoRegister b then raise .outOfRange s
  else
    match s.reg b, s.ks with
    | some r, some k =>
      let best := guessKey r.size r.mask k
      respond best.1 best.2 0 s
    | _, _ => raise .notLoaded s

/-- `BRUTE a, b`: the smallest key that, in lane `a`, makes the combinator reproduce `KS`, or "not found"; the lane
index is tested last (43_search.md R237, 60_exceptions.md R279). -/
def execBrute (a b : Nat) (s : State) : Result :=
  if s.NoRegister b then raise .outOfRange s
  else
    match s.reg b, s.ks with
    | some r, some k =>
      match s.applicable with
      | .error c => raise c s
      | .ok f =>
        if s.NoLane a then raise .outOfRange s
        else
          match bruteForceKey r.size r.mask k (substituteLane s.lanes f a) with
          | some key => respond key 1 0 s
          | none => respond 0 0 0 s
    | _, _ => raise .notLoaded s

end Sys2Proof.Machine
end

