-- ==== Sys2Proof/Machine/Flags.lean ====
section
/-! DEFINITION. The status bits of 10_state.md R42 and their packing in `STAT`'s `R2` (44_system.md R261). The block has no
arithmetic flags. -/

namespace Sys2Proof.Machine

/-- `mix_set` (10_state.md R32). -/
def State.mixSet (s : State) : Bool := s.mix.isSome

/-- `seq_valid` (10_state.md R36). -/
def State.seqValid (s : State) : Bool := s.seq.isSome

/-- `ks_valid` (10_state.md R37). -/
def State.ksValid (s : State) : Bool := s.ks.isSome

/-- `STAT`'s flags: `mix_set * 2^0 + ks_valid * 2^1 + seq_valid * 2^2 + count * 2^8` (44_system.md R261). -/
def State.statFlags (s : State) : Nat :=
  bitVal s.mixSet * 2 ^ 0 + bitVal s.ksValid * 2 ^ 1 + bitVal s.seqValid * 2 ^ 2 + s.count * 2 ^ 8

end Sys2Proof.Machine
end

