-- ==== Sys2Proof/Machine/System.lean ====
section
/-! DEFINITION. The System family, 44_system.md R260 to R262: no operation, status, soft reset. -/

namespace Sys2Proof.Machine

/-- `NOP`: no operation (44_system.md R260). -/
def execNop (s : State) : Result := respond 0 0 0 s

/-- `STAT`: read the fault record and the status bits (44_system.md R261). -/
def execStat (s : State) : Result := respond s.fault.toNat s.faultCw.toNat s.statFlags s

/-- `SRST`: soft reset (44_system.md R262). -/
def execSrst (s : State) : Result := respond 0 0 0 s.cleared

end Sys2Proof.Machine
end

