-- ==== Sys2Proof/Machine/Dispatch.lean ====
section
/-! DEFINITION. What each command does: one arm per row of the opcode table (30_encoding.md R97), one direct call each. -/

namespace Sys2Proof.Machine

/-- The effect of a decoded command on the state, its operands read from the command port. -/
def exec (i : Instr) (s : State) : Host.Outcome State Fault Refusal :=
  match i with
  | .nop => Sys2Proof.Machine.execNop s
  | .stat => Sys2Proof.Machine.execStat s
  | .srst => Sys2Proof.Machine.execSrst s
  | .rinit a => Sys2Proof.Machine.execRinit a s
  | .rinitr a => Sys2Proof.Machine.execRinitr a s
  | .rreset a b => Sys2Proof.Machine.execRreset a b s
  | .rlargest b => Sys2Proof.Machine.execRlargest b s
  | .rout b => Sys2Proof.Machine.execRout b s
  | .rnext a b => Sys2Proof.Machine.execRnext a b s
  | .rgenseq b => Sys2Proof.Machine.execRgenseq b s
  | .rkeyat b => Sys2Proof.Machine.execRkeyat b s
  | .rkey b => Sys2Proof.Machine.execRkey b s
  | .rcfg b => Sys2Proof.Machine.execRcfg b s
  | .cclr => Sys2Proof.Machine.execCclr s
  | .cadd b => Sys2Proof.Machine.execCadd b s
  | .cmix => Sys2Proof.Machine.execCmix s
  | .couts => Sys2Proof.Machine.execCouts s
  | .ctick => Sys2Proof.Machine.execCtick s
  | .cgenbit => Sys2Proof.Machine.execCgenbit s
  | .cgenseq => Sys2Proof.Machine.execCgenseq s
  | .clane a => Sys2Proof.Machine.execClane a s
  | .ksld => Sys2Proof.Machine.execKsld s
  | .ksseq => Sys2Proof.Machine.execKsseq s
  | .ksrd => Sys2Proof.Machine.execKsrd s
  | .seqrd => Sys2Proof.Machine.execSeqrd s
  | .hamm => Sys2Proof.Machine.execHamm s
  | .equ => Sys2Proof.Machine.execEqu s
  | .guess b => Sys2Proof.Machine.execGuess b s
  | .brute a b => Sys2Proof.Machine.execBrute a b s

end Sys2Proof.Machine
end

