-- ==== Sys2Proof/Machine/Port.lean ====
section
/-! DEFINITION. The command port: taking the host's next event, running the packet on the port, and the reset input. -/

namespace Sys2Proof.Machine

/-- The host presents `p` on the command port. -/
def State.present (s : State) (p : Packet) : State := { s with port := p }

/-- The host's event list without its first event. -/
def State.hostLeft (s : State) (rest : List HostEvent) : State := { s with host := rest }

/-- Run the command word on the port: the command it decodes to, or the fault `IllegalCommand`
(30_encoding.md R98, R99). -/
def runPort (s : State) : Result :=
  match decode s.port.cw with
  | .command i => exec i s
  | .illegal _ => raise .illegalCommand s

/-- Accept one packet: a packet with an operand the ports cannot carry is refused (93_implementation_defined.md U21),
any other is run (30_encoding.md R90). -/
def accept (p : Packet) (s : State) : Result :=
  if p.fits s.params then runPort (s.present p) else .refused .operandTooWide

/-- One event of the host's. A command cut off by the reset input leaves nothing behind (70_reset_and_hazards.md R310). -/
def serve (e : HostEvent) (s : State) : Result :=
  match e with
  | .command p => accept p s
  | .reset => .next s.resetInput
  | .commandCutByReset _ => .next s.resetInput

/-- One transition of the machine: the host's next event, or, when there is none, the block holds its state and does
nothing (60_exceptions.md R295). -/
def advance (s : State) : Result :=
  match s.host with
  | [] => .next s
  | e :: rest => serve e (s.hostLeft rest)

/-- The packet of a table row's bits with operands of zero (assumption log 12). -/
def wordPacket (w : Nat) : Packet := { cw := BitVec.ofNat 16 w, x := 0, y := 0, z := 0, rnd := 0 }

end Sys2Proof.Machine
end

