-- ==== Sys2Proof/Machine/Step.lean ====
section
/-! DEFINITION. One step of the machine, and the placing of a table row's word where the next step takes its command. -/

namespace Sys2Proof.Machine

/-- One step: one event of the host's from acceptance to response (00_scope.md R5, 20_memory.md R64). -/
def step (s : State) : Host.Outcome State Fault Refusal := advance s

/-- The host presents the row's word next, before everything else it was to do. The block fetches nothing
(20_memory.md R70): the command port is where a step takes its instruction. -/
def State.withFetchWord (s : State) (nbits w : Nat) : State :=
  { s with host := .command (wordPacket (w % 2 ^ nbits)) :: s.host }

end Sys2Proof.Machine
end

