-- ==== Sys2Proof/Safety.lean ====
section
/-! DEFINITION. What a claim about the block is stated in: the invariant of its states, the tables of the spec that say
which command reads, writes or raises what, and the repetition of `CGENBIT`. -/

namespace Sys2Proof.Machine

/-- The invariant of every valid register and every lane in use (10_state.md R22). -/
abbrev Reg.Ok (ps : Params) (r : Reg) : Prop :=
  1 ≤ r.size ∧ r.size ≤ ps.wmax ∧ r.mask < 2 ^ r.size ∧ r.key < 2 ^ r.size

/-- A stored mixing function in its domain (10_state.md R32). -/
abbrev MixFn.Ok (ps : Params) (f : MixFn) : Prop := f.arity ≤ ps.nlane ∧ f.tt < 2 ^ 2 ^ f.arity

/-- A response the block can give: a status code of 60_exceptions.md R270, values of `XW` bits, and values 0 beside a
fault (30_encoding.md R94). -/
abbrev Response.Ok (ps : Params) (r : Response) : Prop :=
  r.status.toNat ≤ 8 ∧ r.r0 < 2 ^ ps.xw ∧ r.r1 < 2 ^ ps.xw ∧ r.r2 < 2 ^ ps.xw ∧
    (r.status ≠ 0 → r.r0 = 0 ∧ r.r1 = 0 ∧ r.r2 = 0)

/-- The invariant of the machine. It holds after reset and every step keeps it. -/
structure Inv (s : State) : Prop where
  /-- The parameters meet 00_scope.md R6. -/
  params : s.params.Valid
  /-- There are `NR` registers (10_state.md R21). -/
  regCount : s.regs.length = s.params.nr
  /-- Every valid register is in its domain (10_state.md R22). -/
  regs : ∀ r, some r ∈ s.regs → r.Ok s.params
  /-- Every lane in use is in its domain (10_state.md R22). -/
  lanes : ∀ r, r ∈ s.lanes → r.Ok s.params
  /-- `count <= NLANE` (10_state.md R31). -/
  laneCount : s.lanes.length ≤ s.params.nlane
  /-- The mixing function is in its domain (10_state.md R32). -/
  mix : ∀ f, s.mix = some f → f.Ok s.params
  /-- `seq_len <= LMAX` (10_state.md R36). -/
  seq : ∀ q, s.seq = some q → q.length ≤ s.params.lmax
  /-- `ks_len <= LMAX` (10_state.md R37). -/
  ks : ∀ k, s.ks = some k → k.length ≤ s.params.lmax
  /-- Values 9 to 255 never occur in `FAULT` (10_state.md R40). -/
  fault : s.fault.toNat ≤ 8
  /-- While `FAULT = 0`, `FAULT_CW` reads 0 (10_state.md R41). -/
  faultCw : s.fault = 0 → s.faultCw = 0
  /-- The packet on the command port has `XW`-bit operands (30_encoding.md R92). -/
  port : s.port.fits s.params = true
  /-- The last response is one the block can give (30_encoding.md R94). -/
  resp : ∀ r, s.resp = some r → r.Ok s.params

/-- The register a command names as its destination (10_state.md R23, R24). -/
def destReg : Instr → Option Nat
  | .rinit a => some a
  | .rinitr a => some a
  | .rreset a _ => some a
  | .rnext a _ => some a
  | _ => none

/-- The commands that can change the lanes or `count` (10_state.md R31, 41_combinator.md R170 to R176, 44_system.md
R262). -/
def writesLanes : Instr → Bool
  | .cclr | .cadd _ | .ctick | .cgenbit | .cgenseq | .srst => true
  | _ => false

/-- The commands that can change the stored mixing function (41_combinator.md R170, R172, 44_system.md R262). -/
def writesMix : Instr → Bool
  | .cclr | .cmix | .srst => true
  | _ => false

/-- The commands that can change `SEQ` (20_memory.md R61, 44_system.md R262). -/
def writesSeq : Instr → Bool
  | .rgenseq _ | .cgenseq | .srst => true
  | _ => false

/-- The commands that can change `KS` (20_memory.md R61, 44_system.md R262). -/
def writesKs : Instr → Bool
  | .ksld | .ksseq | .srst => true
  | _ => false

/-- The commands 20_memory.md R65 calls pure. -/
def isPure : Instr → Bool
  | .rlargest _ | .rout _ | .rkeyat _ | .rkey _ | .rcfg _ | .couts | .clane _ | .ksrd | .seqrd | .hamm | .equ => true
  | .stat | .nop | .guess _ | .brute _ _ => true
  | _ => false

/-- The commands that read operand `X` (30_encoding.md R97, column operands). -/
def readsX : Instr → Bool
  | .rinit _ | .rinitr _ | .rreset _ _ | .rgenseq _ | .rkeyat _ | .cmix | .cgenseq | .ksld => true
  | _ => false

/-- The commands that read operand `Y` (30_encoding.md R97, column operands). -/
def readsY : Instr → Bool
  | .rinit _ | .rinitr _ | .cmix | .ksld => true
  | _ => false

/-- The commands that read operand `Z` (30_encoding.md R97, column operands). -/
def readsZ : Instr → Bool
  | .rinit _ => true
  | _ => false

/-- The commands that read the random input (30_encoding.md R92). -/
def readsRnd : Instr → Bool
  | .rinitr _ => true
  | _ => false

/-- Which faults a command can raise (60_exceptions.md R285). -/
def mayRaise : Instr → List Cause
  | .nop | .stat | .srst | .cclr | .couts => []
  | .rinit _ => [.invalidKey, .invalidConfig, .outOfRange]
  | .rinitr _ => [.invalidConfig, .outOfRange]
  | .rreset _ _ => [.invalidKey, .outOfRange, .notLoaded]
  | .rlargest _ | .rout _ | .rnext _ _ | .rkeyat _ | .rkey _ | .rcfg _ => [.outOfRange, .notLoaded]
  | .rgenseq _ => [.outOfRange, .notLoaded]
  | .cadd _ => [.outOfRange, .notLoaded]
  | .cmix => [.invalidConfig, .outOfRange]
  | .ctick => [.notConfigured]
  | .cgenbit => [.notConfigured, .arityMismatch]
  | .cgenseq => [.notConfigured, .arityMismatch, .outOfRange]
  | .clane _ => [.outOfRange]
  | .ksld => [.invalidConfig, .outOfRange]
  | .ksseq | .ksrd | .seqrd => [.notLoaded]
  | .hamm | .equ => [.notLoaded, .lengthMismatch]
  | .guess _ => [.outOfRange, .notLoaded]
  | .brute _ _ => [.notConfigured, .arityMismatch, .outOfRange, .notLoaded]

/-- `n` successive `CGENBIT`s: the bits they answer and the state after them, none as soon as one does not answer
`OK` (41_combinator.md R176). -/
def genBits : Nat → State → Option (BitSeq × State)
  | 0, s => some ([], s)
  | n + 1, s =>
    match exec .cgenbit s with
    | .next t =>
      match t.resp with
      | some r =>
        if r.status = 0 then (genBits n t).map (fun p => (decide (r.r0 = 1) :: p.1, p.2)) else none
      | none => none
    | .fault _ => none
    | .refused _ => none

end Sys2Proof.Machine
end

