-- ==== Sys2Proof/Certificates/Slice0/Obligations.lean ====
section
/-! DEFINITION. The statements for the provers, each from numbered rules of the spec. -/

open Sys2Proof Sys2Proof.Machine

/-! ### Encoding and decoding -/

/-- Decode and encode agree on every well-formed command, every index value (30_encoding.md R91, R98). -/
def Obligations.DecodeOfEncodeIsTheCommand : Prop :=
  ∀ i : Instr, i.wellFormed = true → decode (encode i) = .command i

/-- The other direction: a word that decodes is the word of what it decodes to, which is well formed
(30_encoding.md R91, R98). -/
def Obligations.EncodeOfDecodeIsTheWord : Prop :=
  ∀ (w : CommandWord) (i : Instr), decode w = .command i → i.wellFormed = true ∧ encode i = w

/-- Decoding follows the match and mask columns of the opcode map: each row's words are the row's command, a word of no
row is illegal, no word is of two rows, and the fields are the word's bits (30_encoding.md R97, R98, R99). -/
def Obligations.DecodeFollowsTheOpcodeMap : Prop :=
  (∀ (w : CommandWord) (row : OpcodeRow), row ∈ opcodeTable →
    (w &&& row.mask = row.pattern ↔ ∃ i, decode w = .command i ∧ i.mnemonic = row.mnemonic)) ∧
  (∀ w : CommandWord,
    (∃ why, decode w = .illegal why) ↔ ∀ row ∈ opcodeTable, w &&& row.mask ≠ row.pattern) ∧
  (∀ (w : CommandWord) (r₁ r₂ : OpcodeRow), r₁ ∈ opcodeTable → r₂ ∈ opcodeTable →
    w &&& r₁.mask = r₁.pattern → w &&& r₂.mask = r₂.pattern → r₁ = r₂) ∧
  (∀ (w : CommandWord) (i : Instr), decode w = .command i →
    i.op = w.toNat / 256 ∧ i.fieldA = w.toNat / 16 % 16 ∧ i.fieldB = w.toNat % 16)

/-- Words written out from the field layout of 30_encoding.md R91 and the opcodes of R97, one or more per family, and
illegal words of 95_test_vectors.md V-E3. -/
def Obligations.WrittenOutWordsDecode : Prop :=
  decode 0b0000000000000000 = .command .nop ∧
  decode 0b0000001000000000 = .command .srst ∧
  decode 0b0001000000100000 = .command (.rinit 2) ∧
  decode 0b0001010100110010 = .command (.rnext 3 2) ∧
  decode 0b0001100000001001 = .command (.rkey 9) ∧
  decode 0b0010000100000001 = .command (.cadd 1) ∧
  decode 0b0010011100010000 = .command (.clane 1) ∧
  decode 0b0011000000000000 = .command .ksld ∧
  decode 0b0100000000000111 = .command (.guess 7) ∧
  decode 0b0100000100010100 = .command (.brute 1 4) ∧
  decode 0b0000001100000000 = .illegal .unassignedOpcode ∧
  decode 0b0010010100000001 = .illegal .unusedFieldNonzero ∧
  decode 0b0001100000010000 = .illegal .unusedFieldNonzero ∧
  decode 0b1111111111111111 = .illegal .unassignedOpcode

/-! ### The step -/

/-- A step runs the command the presented word decodes to: it is `exec` of it in the state where the packet stands on
the command port and the host's list has lost it (30_encoding.md R90, R98). -/
def Obligations.StepRunsTheDecodedCommand : Prop :=
  ∀ (s : State) (p : Packet) (rest : List HostEvent) (i : Instr),
    s.host = .command p :: rest → p.fits s.params = true → decode p.cw = .command i →
      step s = exec i { s with host := rest, port := p }

/-- A presented word that matches no row of the opcode map raises `IllegalCommand` (60_exceptions.md R275). -/
def Obligations.IllegalWordRaisesIllegalCommand : Prop :=
  ∀ (s : State) (p : Packet) (rest : List HostEvent),
    s.host = .command p :: rest → p.fits s.params = true →
    (∀ row ∈ opcodeTable, p.cw &&& row.mask ≠ row.pattern) →
      step s = .next
        { s with
          host := rest
          port := p
          fault := if s.fault = 0 then 5 else s.fault
          faultCw := if s.fault = 0 then p.cw else s.faultCw
          resp := some ⟨5, 0, 0, 0⟩ }

/-- With no event of the host's the block holds its state and does nothing (60_exceptions.md R295). -/
def Obligations.IdleBlockHoldsItsState : Prop :=
  ∀ s : State, s.host = [] → step s = .next s

/-- The reset input, between commands or during one, and `SRST` have the same effect on the state, that of
10_state.md R50; `SRST` answers, the reset input does not, and a command cut off leaves nothing
(70_reset_and_hazards.md R310, 44_system.md R262). The model's choices in it: assumption log 3 (no
response stands after a reset input), 4 (the command port keeps its packet) and 10 (a command cut off is an event). -/
def Obligations.ResetInputAndSoftResetGiveTheResetState : Prop :=
  encode .srst = 0x0200 ∧
  ∀ (s : State) (p : Packet) (rest : List HostEvent),
    (s.host = .reset :: rest → step s = .next { State.resetOf s.params with host := rest, port := s.port }) ∧
    (s.host = .commandCutByReset p :: rest →
      step s = .next { State.resetOf s.params with host := rest, port := s.port }) ∧
    exec .srst s = .next
      { State.resetOf s.params with host := s.host, port := s.port, resp := some ⟨0, 0, 0, 0⟩ }

/-- The model's choice (assumption log 5), from 93_implementation_defined.md U21: a packet with an operand of `2^XW` or
more has no step. -/
def Obligations.TooWideOperandIsRefused : Prop :=
  ∀ (s : State) (p : Packet) (rest : List HostEvent),
    s.host = .command p :: rest →
    (2 ^ s.params.xw ≤ p.x ∨ 2 ^ s.params.xw ≤ p.y ∨ 2 ^ s.params.xw ≤ p.z ∨ 2 ^ s.params.xw ≤ p.rnd) →
      step s = .refused .operandTooWide

/-- Every presented command is answered: whatever the state and the word, the step is a next state with exactly one
event of the host's consumed and a response whose status is a code of 60_exceptions.md R270, with values 0 beside a
fault (30_encoding.md R94, 93_implementation_defined.md U3). -/
def Obligations.EveryPresentedCommandIsAnswered : Prop :=
  ∀ (s : State) (p : Packet) (rest : List HostEvent),
    s.host = .command p :: rest → p.fits s.params = true →
      ∃ (t : State) (r : Response), step s = .next t ∧ t.resp = some r ∧ t.host = rest ∧ t.params = s.params ∧
        r.status.toNat ≤ 8 ∧ (r.status ≠ 0 → r.r0 = 0 ∧ r.r1 = 0 ∧ r.r2 = 0)

/-- The state after a reset, field by field (10_state.md R50), in every configuration, and that the block then waits.
The values of the model's own fields `port`, `resp` and `host` are the model's choice (assumption log 2, 3, 4). -/
def Obligations.ResetStateWaitsForItsFirstCommand : Prop :=
  ∀ p : Params,
    (∀ i, (State.resetOf p).reg i = none) ∧ (State.resetOf p).regs.length = p.nr ∧
    (State.resetOf p).lanes = [] ∧ (State.resetOf p).mix = none ∧
    (State.resetOf p).seq = none ∧ (State.resetOf p).ks = none ∧
    (State.resetOf p).fault = 0 ∧ (State.resetOf p).faultCw = 0 ∧
    (State.resetOf p).params = p ∧ step (State.resetOf p) = .next (State.resetOf p)

/-! ### The invariant -/

/-- The invariant holds after reset in every legal configuration, the reference one among them. -/
def Obligations.ResetStateMeetsTheInvariant : Prop :=
  (∀ p : Params, p.Valid → Inv (State.resetOf p)) ∧ Inv State.reset

/-- Every step keeps the invariant: registers and lanes stay in their domains, `count`, the mixing function and the
buffers in their bounds, `FAULT` a code of the spec, `FAULT_CW` 0 while `FAULT` is 0, and every response within `XW`
bits (10_state.md R22, R31, R32, R36, R37, R40, R41; 30_encoding.md R94). -/
def Obligations.StepKeepsTheInvariant : Prop :=
  ∀ s t : State, Inv s → step s = .next t → Inv t

/-! ### Rules over all commands -/

/-- What a fault does, for every command: if the response is not `OK`, the state after is the state before but for the
response and, if none was recorded, the fault record (60_exceptions.md R270, R280). -/
def Obligations.FaultChangesOnlyTheFaultRecord : Prop :=
  [Cause.invalidKey, .notConfigured, .arityMismatch, .invalidConfig, .illegalCommand, .outOfRange, .notLoaded,
    .lengthMismatch].map (fun c => c.code.toNat) = [1, 2, 3, 4, 5, 6, 7, 8] ∧
  ∀ (i : Instr) (s t : State) (r : Response), exec i s = .next t → t.resp = some r → r.status ≠ 0 →
    t = { s with
          fault := if s.fault = 0 then r.status else s.fault
          faultCw := if s.fault = 0 then s.port.cw else s.faultCw
          resp := some ⟨r.status, 0, 0, 0⟩ }

/-- The fault record after any command but `SRST`: kept once nonzero, written by the first fault, else left alone
(10_state.md R40, R41). -/
def Obligations.FirstFaultIsTheOneRecorded : Prop :=
  ∀ (i : Instr) (s t : State), i ≠ .srst → exec i s = .next t →
    (s.fault ≠ 0 → t.fault = s.fault ∧ t.faultCw = s.faultCw) ∧
    (∀ r, t.resp = some r → s.fault = 0 →
      t.fault = r.status ∧ t.faultCw = if r.status = 0 then s.faultCw else s.port.cw)

/-- Which command can raise which fault: the columns of the matrix of 60_exceptions.md R285 bound every command's
status. A decoded command never raises `IllegalCommand`. -/
def Obligations.FaultsFollowTheMatrix : Prop :=
  ∀ (i : Instr) (s t : State) (r : Response), exec i s = .next t → t.resp = some r →
    r.status = 0 ∨ ∃ c ∈ mayRaise i, r.status = c.code

/-- The frame of every command: the parameters, the command port and the host's list never change; a register changes
only as the destination its command names (or by `SRST`); lanes, mixing function, `SEQ` and `KS` change only by the
commands that write them (10_state.md R23, R24, R31, R32, R36, R37; 20_memory.md R61). -/
def Obligations.CommandsWriteOnlyTheirState : Prop :=
  ∀ (i : Instr) (s t : State), exec i s = .next t →
    t.params = s.params ∧ t.port = s.port ∧ t.host = s.host ∧
    (i ≠ .srst → ∀ j, destReg i ≠ some j → t.reg j = s.reg j) ∧
    (i ≠ .srst → destReg i = none → t.regs = s.regs) ∧
    (writesLanes i = false → t.lanes = s.lanes) ∧
    (writesMix i = false → t.mix = s.mix) ∧
    (writesSeq i = false → t.seq = s.seq) ∧
    (writesKs i = false → t.ks = s.ks)

/-- The read commands and the searches are pure, and issuing one twice in a row gives the same response twice
(20_memory.md R65). -/
def Obligations.PureCommandsAnswerTheSameTwice : Prop :=
  ∀ (i : Instr) (s t : State), isPure i = true → exec i s = .next t →
    { t with resp := s.resp, fault := s.fault, faultCw := s.faultCw } = s ∧
    (∀ r, t.resp = some r → r.status = 0 → t = { s with resp := some r }) ∧
    ∃ u, exec i t = .next u ∧ u.resp = t.resp

/-- A nonzero `FAULT` changes the behaviour of no command: with any other fault record the same command gives the same
state but for that record, and the same response but for `STAT`, which reads it (60_exceptions.md R281). -/
def Obligations.FaultRecordSteersNoCommand : Prop :=
  ∀ (i : Instr) (s t : State) (f : StatusCode) (w : CommandWord), exec i s = .next t →
    ∃ u, exec i { s with fault := f, faultCw := w } = .next u ∧
      (i ≠ .stat → { u with fault := t.fault, faultCw := t.faultCw } = t) ∧
      (i = .stat → { u with fault := t.fault, faultCw := t.faultCw, resp := t.resp } = t)

/-- An operand a command does not read has no effect: two packets with one word that agree on the operands the command
reads give the same state but for the port itself (30_encoding.md R92, R97). -/
def Obligations.UnreadOperandsHaveNoEffect : Prop :=
  ∀ (i : Instr) (s t : State) (p : Packet), p.cw = s.port.cw →
    (readsX i = true → p.x = s.port.x) → (readsY i = true → p.y = s.port.y) →
    (readsZ i = true → p.z = s.port.z) → (readsRnd i = true → p.rnd = s.port.rnd) →
    exec i s = .next t → exec i { s with port := p } = .next { t with port := p }

/-- Stepping changes keys only: the sizes and masks of the lanes stay, and `CADD` leaves the older lanes as they are
(10_state.md R22, R30; 41_combinator.md R162, R171). -/
def Obligations.LanesKeepTheirSizeAndMask : Prop :=
  ∀ (i : Instr) (s t : State), exec i s = .next t →
    (i = .ctick ∨ i = .cgenbit ∨ i = .cgenseq →
      t.lanes.map (fun r => (r.size, r.mask)) = s.lanes.map (fun r => (r.size, r.mask))) ∧
    (∀ b, i = .cadd b → t.lanes.take s.lanes.length = s.lanes)

/-- The valid bits: a successful command sets the bit of what it writes, and a set bit returns to 0 only by `CCLR` (for
`mix_set`) and `SRST` (10_state.md R25, R42; 70_reset_and_hazards.md R315). -/
def Obligations.ValidBitsFallOnlyByClearOrReset : Prop :=
  ∀ (i : Instr) (s t : State), i ≠ .srst → exec i s = .next t →
    (∀ j, (s.reg j).isSome = true → (t.reg j).isSome = true) ∧
    (s.seq.isSome = true → t.seq.isSome = true) ∧ (s.ks.isSome = true → t.ks.isSome = true) ∧
    (i ≠ .cclr → s.mix.isSome = true → t.mix.isSome = true) ∧
    ∀ r, t.resp = some r → r.status = 0 →
      (∀ a, destReg i = some a → a < s.regs.length → (t.reg a).isSome = true) ∧
      ((i = .cgenseq ∨ ∃ b, i = .rgenseq b) → t.seq.isSome = true) ∧
      ((i = .ksld ∨ i = .ksseq) → t.ks.isSome = true) ∧ (i = .cmix → t.mix.isSome = true)

/-! ### The commands, each with its tests in order and its effect -/

/-- `NOP` and `STAT` (44_system.md R260, R261). The bits of `STAT`'s `R2` are written out. -/
def Obligations.NopAndStatAnswer : Prop :=
  encode .nop = 0x0000 ∧ encode .stat = 0x0100 ∧
  ∀ s : State,
    exec .nop s = .next { s with resp := some ⟨0, 0, 0, 0⟩ } ∧
    exec .stat s = .next
      { s with
        resp := some ⟨0, s.fault.toNat, s.faultCw.toNat,
          (if s.mix = none then 0 else 1) + (if s.ks = none then 0 else 2) + (if s.seq = none then 0 else 4) +
            256 * s.lanes.length⟩ }

/-- `RINIT a` (40_register.md R130). -/
def Obligations.RinitConstructsTheRegister : Prop :=
  ∀ (a : Nat) (s : State),
    encode (.rinit a) = BitVec.ofNat 16 (0x1000 + 16 * a) ∧
    (s.params.nr ≤ a → exec (.rinit a) s = .next (s.faulted .outOfRange)) ∧
    (a < s.params.nr → (s.port.x = 0 ∨ s.params.wmax < s.port.x ∨ 2 ^ s.port.x ≤ s.port.y) →
      exec (.rinit a) s = .next (s.faulted .invalidConfig)) ∧
    (a < s.params.nr → 1 ≤ s.port.x → s.port.x ≤ s.params.wmax → s.port.y < 2 ^ s.port.x →
      2 ^ s.port.x - 1 < s.port.z → exec (.rinit a) s = .next (s.faulted .invalidKey)) ∧
    (a < s.params.nr → 1 ≤ s.port.x → s.port.x ≤ s.params.wmax → s.port.y < 2 ^ s.port.x →
      s.port.z ≤ 2 ^ s.port.x - 1 →
      exec (.rinit a) s = .next
        { s with regs := s.regs.set a (some ⟨s.port.x, s.port.y, s.port.z⟩), resp := some ⟨0, 0, 0, 0⟩ })

/-- `RINITR a` (40_register.md R131); the random input is any value. -/
def Obligations.RinitrConstructsFromTheDraw : Prop :=
  ∀ (a : Nat) (s : State),
    encode (.rinitr a) = BitVec.ofNat 16 (0x1100 + 16 * a) ∧
    (s.params.nr ≤ a → exec (.rinitr a) s = .next (s.faulted .outOfRange)) ∧
    (a < s.params.nr → (s.port.x = 0 ∨ s.params.wmax < s.port.x ∨ 2 ^ s.port.x ≤ s.port.y) →
      exec (.rinitr a) s = .next (s.faulted .invalidConfig)) ∧
    (a < s.params.nr → 1 ≤ s.port.x → s.port.x ≤ s.params.wmax → s.port.y < 2 ^ s.port.x →
      exec (.rinitr a) s = .next
        { s with
          regs := s.regs.set a (some ⟨s.port.x, s.port.y, s.port.rnd % 2 ^ s.port.x⟩)
          resp := some ⟨0, s.port.rnd % 2 ^ s.port.x, 0, 0⟩ })

/-- `RRESET a, b` (40_register.md R132). -/
def Obligations.RresetReplacesTheKey : Prop :=
  ∀ (a b : Nat) (s : State),
    encode (.rreset a b) = BitVec.ofNat 16 (0x1200 + 16 * a + b) ∧
    (s.params.nr ≤ a ∨ s.params.nr ≤ b → exec (.rreset a b) s = .next (s.faulted .outOfRange)) ∧
    (a < s.params.nr → b < s.params.nr → s.reg b = none →
      exec (.rreset a b) s = .next (s.faulted .notLoaded)) ∧
    (∀ r, a < s.params.nr → b < s.params.nr → s.reg b = some r → 2 ^ r.size - 1 < s.port.x →
      exec (.rreset a b) s = .next (s.faulted .invalidKey)) ∧
    (∀ r, a < s.params.nr → b < s.params.nr → s.reg b = some r → s.port.x ≤ 2 ^ r.size - 1 →
      exec (.rreset a b) s = .next
        { s with regs := s.regs.set a (some ⟨r.size, r.mask, s.port.x⟩), resp := some ⟨0, 0, 0, 0⟩ })

/-- `RLARGEST b`, `ROUT b`, `RKEY b`, `RCFG b` (40_register.md R133, R134, R138, R139): what each answers, and that
nothing but the response changes. -/
def Obligations.RegisterReadsAnswer : Prop :=
  ∀ (b : Nat) (s : State),
    (encode (.rlargest b) = BitVec.ofNat 16 (0x1300 + b) ∧ encode (.rout b) = BitVec.ofNat 16 (0x1400 + b) ∧
      encode (.rkey b) = BitVec.ofNat 16 (0x1800 + b) ∧ encode (.rcfg b) = BitVec.ofNat 16 (0x1900 + b)) ∧
    (∀ i ∈ [Instr.rlargest b, .rout b, .rkey b, .rcfg b],
      (s.params.nr ≤ b → exec i s = .next (s.faulted .outOfRange)) ∧
      (b < s.params.nr → s.reg b = none → exec i s = .next (s.faulted .notLoaded))) ∧
    (∀ r, b < s.params.nr → s.reg b = some r →
      exec (.rlargest b) s = .next { s with resp := some ⟨0, 2 ^ r.size - 1, 0, 0⟩ } ∧
      exec (.rout b) s = .next { s with resp := some ⟨0, if r.key.testBit (r.size - 1) then 1 else 0, 0, 0⟩ } ∧
      exec (.rkey b) s = .next { s with resp := some ⟨0, r.key, 0, 0⟩ } ∧
      exec (.rcfg b) s = .next { s with resp := some ⟨0, r.size, r.mask, 0⟩ })

/-- `RNEXT a, b` (40_register.md R135): the new key is `Next` of 40_register.md R122. -/
def Obligations.RnextStepsTheRegister : Prop :=
  ∀ (a b : Nat) (s : State),
    encode (.rnext a b) = BitVec.ofNat 16 (0x1500 + 16 * a + b) ∧
    (s.params.nr ≤ a ∨ s.params.nr ≤ b → exec (.rnext a b) s = .next (s.faulted .outOfRange)) ∧
    (a < s.params.nr → b < s.params.nr → s.reg b = none →
      exec (.rnext a b) s = .next (s.faulted .notLoaded)) ∧
    (∀ r, a < s.params.nr → b < s.params.nr → s.reg b = some r →
      exec (.rnext a b) s = .next
        { s with
          regs := s.regs.set a (some ⟨r.size, r.mask, nextKey r.size r.mask r.key⟩)
          resp := some ⟨0, nextKey r.size r.mask r.key, 0, 0⟩ })

/-- `RGENSEQ b` (40_register.md R136): `SEQ` and the response are `RegSeq` of 40_register.md R124, and the register
stays. -/
def Obligations.RgenseqFillsTheSequenceBuffer : Prop :=
  ∀ (b : Nat) (s : State),
    encode (.rgenseq b) = BitVec.ofNat 16 (0x1600 + b) ∧
    (s.params.nr ≤ b ∨ s.params.lmax < s.port.x → exec (.rgenseq b) s = .next (s.faulted .outOfRange)) ∧
    (b < s.params.nr → s.port.x ≤ s.params.lmax → s.reg b = none →
      exec (.rgenseq b) s = .next (s.faulted .notLoaded)) ∧
    (∀ r, b < s.params.nr → s.port.x ≤ s.params.lmax → s.reg b = some r →
      exec (.rgenseq b) s = .next
        { s with
          seq := some (regSeq r.size r.mask r.key s.port.x)
          resp := some ⟨0, seqVal (regSeq r.size r.mask r.key s.port.x), s.port.x, 0⟩ })

/-- `RKEYAT b` (40_register.md R137). -/
def Obligations.RkeyatEnumeratesTheKeys : Prop :=
  ∀ (b : Nat) (s : State),
    encode (.rkeyat b) = BitVec.ofNat 16 (0x1700 + b) ∧
    (s.params.nr ≤ b → exec (.rkeyat b) s = .next (s.faulted .outOfRange)) ∧
    (b < s.params.nr → s.reg b = none → exec (.rkeyat b) s = .next (s.faulted .notLoaded)) ∧
    (∀ r, b < s.params.nr → s.reg b = some r → s.port.x < 2 ^ r.size - 1 →
      exec (.rkeyat b) s = .next { s with resp := some ⟨0, s.port.x + 1, 1, 0⟩ }) ∧
    (∀ r, b < s.params.nr → s.reg b = some r → 2 ^ r.size - 1 ≤ s.port.x →
      exec (.rkeyat b) s = .next { s with resp := some ⟨0, 0, 0, 0⟩ })

/-- `CCLR` and `CMIX` (41_combinator.md R170, R172). -/
def Obligations.CclrAndCmixConfigure : Prop :=
  encode .cclr = 0x2000 ∧ encode .cmix = 0x2200 ∧
  ∀ s : State,
    exec .cclr s = .next { s with lanes := [], mix := none, resp := some ⟨0, 0, 0, 0⟩ } ∧
    (s.params.nlane < s.port.x → exec .cmix s = .next (s.faulted .outOfRange)) ∧
    (s.port.x ≤ s.params.nlane → 2 ^ 2 ^ s.port.x ≤ s.port.y → exec .cmix s = .next (s.faulted .invalidConfig)) ∧
    (s.port.x ≤ s.params.nlane → s.port.y < 2 ^ 2 ^ s.port.x →
      exec .cmix s = .next { s with mix := some ⟨s.port.x, s.port.y⟩, resp := some ⟨0, 0, 0, 0⟩ })

/-- `CADD b` (41_combinator.md R171). -/
def Obligations.CaddAppendsACopy : Prop :=
  ∀ (b : Nat) (s : State),
    encode (.cadd b) = BitVec.ofNat 16 (0x2100 + b) ∧
    (s.params.nr ≤ b ∨ s.lanes.length = s.params.nlane → exec (.cadd b) s = .next (s.faulted .outOfRange)) ∧
    (b < s.params.nr → s.lanes.length ≠ s.params.nlane → s.reg b = none →
      exec (.cadd b) s = .next (s.faulted .notLoaded)) ∧
    (∀ r, b < s.params.nr → s.lanes.length ≠ s.params.nlane → s.reg b = some r →
      exec (.cadd b) s = .next
        { s with lanes := s.lanes ++ [r], resp := some ⟨0, s.lanes.length + 1, 0, 0⟩ })

/-- `COUTS` and `CLANE a` (41_combinator.md R160, R173, R177): bit `i` of `COUTS`'s `R0` is the output bit of lane `i`
and no bit beyond the lanes is set. -/
def Obligations.CoutsAndClaneReadTheLanes : Prop :=
  encode .couts = 0x2300 ∧
  (∀ s : State, ∃ v, exec .couts s = .next { s with resp := some ⟨0, v, s.lanes.length, 0⟩ } ∧
    ∀ i, v.testBit i = match s.lanes[i]? with | some r => r.key.testBit (r.size - 1) | none => false) ∧
  ∀ (a : Nat) (s : State),
    encode (.clane a) = BitVec.ofNat 16 (0x2700 + 16 * a) ∧
    (s.lanes.length ≤ a → exec (.clane a) s = .next (s.faulted .outOfRange)) ∧
    (∀ r, s.lanes[a]? = some r → exec (.clane a) s = .next { s with resp := some ⟨0, r.key, r.size, r.mask⟩ })

/-- `CTICK` (41_combinator.md R162, R174). -/
def Obligations.CtickStepsEveryLane : Prop :=
  encode .ctick = 0x2400 ∧
  ∀ s : State,
    (s.lanes = [] ∨ s.mix = none → exec .ctick s = .next (s.faulted .notConfigured)) ∧
    (∀ f, s.lanes ≠ [] → s.mix = some f →
      exec .ctick s = .next
        { s with
          lanes := s.lanes.map (fun r => ⟨r.size, r.mask, nextKey r.size r.mask r.key⟩)
          resp := some ⟨0, 0, 0, 0⟩ })

/-- `CGENBIT` (41_combinator.md R161, R175): the table's entry at the lanes' output bits, lane `i` weighing `2^i`, is
answered, and every lane steps. -/
def Obligations.CgenbitMixesThenTicks : Prop :=
  encode .cgenbit = 0x2500 ∧
  ∀ s : State,
    (s.lanes = [] ∨ s.mix = none → exec .cgenbit s = .next (s.faulted .notConfigured)) ∧
    (∀ f, s.lanes ≠ [] → s.mix = some f → f.arity ≠ s.lanes.length →
      exec .cgenbit s = .next (s.faulted .arityMismatch)) ∧
    (∀ f, s.lanes ≠ [] → s.mix = some f → f.arity = s.lanes.length →
      exec .cgenbit s = .next
        { s with
          lanes := s.lanes.map (fun r => ⟨r.size, r.mask, nextKey r.size r.mask r.key⟩)
          resp := some ⟨0, if f.tt.testBit (packBits (s.lanes.map (fun r => r.key.testBit (r.size - 1)))) then 1 else 0,
            0, 0⟩ })

/-- `CGENSEQ` (41_combinator.md R176): `CombSeq` of 41_combinator.md R163 into `SEQ` and the lanes; a length of 0 makes
no configuration test. -/
def Obligations.CgenseqFillsTheSequenceBuffer : Prop :=
  encode .cgenseq = 0x2600 ∧
  ∀ s : State,
    (s.params.lmax < s.port.x → exec .cgenseq s = .next (s.faulted .outOfRange)) ∧
    (s.port.x = 0 → exec .cgenseq s = .next { s with seq := some [], resp := some ⟨0, 0, 0, 0⟩ }) ∧
    (s.port.x ≤ s.params.lmax → 1 ≤ s.port.x → (s.lanes = [] ∨ s.mix = none) →
      exec .cgenseq s = .next (s.faulted .notConfigured)) ∧
    (∀ f, s.port.x ≤ s.params.lmax → 1 ≤ s.port.x → s.lanes ≠ [] → s.mix = some f → f.arity ≠ s.lanes.length →
      exec .cgenseq s = .next (s.faulted .arityMismatch)) ∧
    (∀ f, s.port.x ≤ s.params.lmax → 1 ≤ s.port.x → s.lanes ≠ [] → s.mix = some f → f.arity = s.lanes.length →
      exec .cgenseq s = .next
        { s with
          lanes := (combSeq s.lanes f s.port.x).2
          seq := some (combSeq s.lanes f s.port.x).1
          resp := some ⟨0, seqVal (combSeq s.lanes f s.port.x).1, s.port.x, 0⟩ })

/-- `KSLD` (42_comparator.md R210). -/
def Obligations.KsldLoadsTheKeystream : Prop :=
  encode .ksld = 0x3000 ∧
  ∀ s : State,
    (s.params.lmax < s.port.x → exec .ksld s = .next (s.faulted .outOfRange)) ∧
    (s.port.x ≤ s.params.lmax → 2 ^ s.port.x ≤ s.port.y → exec .ksld s = .next (s.faulted .invalidConfig)) ∧
    (s.port.x ≤ s.params.lmax → s.port.y < 2 ^ s.port.x →
      ∃ k : BitSeq, exec .ksld s = .next { s with ks := some k, resp := some ⟨0, 0, 0, 0⟩ } ∧
        k.length = s.port.x ∧ ∀ j, j < s.port.x → k[j]? = some (s.port.y.testBit (s.port.x - 1 - j)))

/-- `KSSEQ` (42_comparator.md R211). -/
def Obligations.KsseqCopiesTheSequence : Prop :=
  encode .ksseq = 0x3100 ∧
  ∀ s : State,
    (s.seq = none → exec .ksseq s = .next (s.faulted .notLoaded)) ∧
    (∀ q, s.seq = some q →
      exec .ksseq s = .next { s with ks := some q, resp := some ⟨0, 0, q.length, 0⟩ })

/-- `KSRD` and `SEQRD` (42_comparator.md R212, R213). -/
def Obligations.BufferReadsAnswer : Prop :=
  encode .ksrd = 0x3200 ∧ encode .seqrd = 0x3300 ∧
  ∀ s : State,
    (s.ks = none → exec .ksrd s = .next (s.faulted .notLoaded)) ∧
    (∀ k, s.ks = some k → exec .ksrd s = .next { s with resp := some ⟨0, seqVal k, k.length, 0⟩ }) ∧
    (s.seq = none → exec .seqrd s = .next (s.faulted .notLoaded)) ∧
    (∀ q, s.seq = some q → exec .seqrd s = .next { s with resp := some ⟨0, seqVal q, q.length, 0⟩ })

/-- `HAMM` and `EQU` (42_comparator.md R214, R215). -/
def Obligations.ComparatorAnswers : Prop :=
  encode .hamm = 0x3400 ∧ encode .equ = 0x3500 ∧
  ∀ s : State,
    (∀ i ∈ [Instr.hamm, .equ],
      (s.seq = none ∨ s.ks = none → exec i s = .next (s.faulted .notLoaded)) ∧
      (∀ q k, s.seq = some q → s.ks = some k → q.length ≠ k.length →
        exec i s = .next (s.faulted .lengthMismatch))) ∧
    (∀ q k, s.seq = some q → s.ks = some k → q.length = k.length →
      exec .hamm s = .next { s with resp := some ⟨0, hamming q k, q.length, 0⟩ } ∧
      exec .equ s = .next { s with resp := some ⟨0, if q = k then 1 else 0, 0, 0⟩ })

/-- `GUESS b` (43_search.md R232): the key answered is the smallest of those at the minimum distance, and no state but
the response is written. The register's key is not read. -/
def Obligations.GuessAnswersTheSmallestNearestKey : Prop :=
  ∀ (b : Nat) (s : State),
    encode (.guess b) = BitVec.ofNat 16 (0x4000 + b) ∧
    (s.params.nr ≤ b → exec (.guess b) s = .next (s.faulted .outOfRange)) ∧
    (b < s.params.nr → (s.reg b = none ∨ s.ks = none) → exec (.guess b) s = .next (s.faulted .notLoaded)) ∧
    (∀ r ks, b < s.params.nr → s.reg b = some r → 1 ≤ r.size → s.ks = some ks →
      ∃ k d, exec (.guess b) s = .next { s with resp := some ⟨0, k, d, 0⟩ } ∧
        1 ≤ k ∧ k ≤ 2 ^ r.size - 1 ∧ d = hamming (regSeq r.size r.mask k ks.length) ks ∧
        (∀ k', 1 ≤ k' → k' ≤ 2 ^ r.size - 1 → d ≤ hamming (regSeq r.size r.mask k' ks.length) ks) ∧
        (∀ k', 1 ≤ k' → k' < k → d < hamming (regSeq r.size r.mask k' ks.length) ks))

/-- `BRUTE a, b` (43_search.md R237): the tests in the rule's order, the lane index last, then the answer of
`BruteForceKey` with the block's builder; no state but the response is written. -/
def Obligations.BruteAnswersTheSearch : Prop :=
  ∀ (a b : Nat) (s : State),
    encode (.brute a b) = BitVec.ofNat 16 (0x4100 + 16 * a + b) ∧
    (s.params.nr ≤ b → exec (.brute a b) s = .next (s.faulted .outOfRange)) ∧
    (b < s.params.nr → (s.reg b = none ∨ s.ks = none) → exec (.brute a b) s = .next (s.faulted .notLoaded)) ∧
    (∀ r ks, b < s.params.nr → s.reg b = some r → s.ks = some ks → (s.lanes = [] ∨ s.mix = none) →
      exec (.brute a b) s = .next (s.faulted .notConfigured)) ∧
    (∀ r ks f, b < s.params.nr → s.reg b = some r → s.ks = some ks → s.lanes ≠ [] → s.mix = some f →
      f.arity ≠ s.lanes.length → exec (.brute a b) s = .next (s.faulted .arityMismatch)) ∧
    (∀ r ks f, b < s.params.nr → s.reg b = some r → s.ks = some ks → s.lanes ≠ [] → s.mix = some f →
      f.arity = s.lanes.length → s.lanes.length ≤ a → exec (.brute a b) s = .next (s.faulted .outOfRange)) ∧
    (∀ r ks f, b < s.params.nr → s.reg b = some r → s.ks = some ks → s.mix = some f →
      f.arity = s.lanes.length → a < s.lanes.length →
      exec (.brute a b) s = .next
        { s with
          resp := some
            (match bruteForceKey r.size r.mask ks (fun c => (s.lanes.set a c, f)) with
             | some k => ⟨0, k, 1, 0⟩
             | none => ⟨0, 0, 0, 0⟩) })

/-! ### The register step -/

/-- `Next` by the bits: the mask is exclusive-ored into the shifted, truncated key exactly when the top bit was 1, the
result stays within the size, and bit 0 is `o & bit(m, 0)` (40_register.md R121, R122). -/
def Obligations.NextKeyIsTheGaloisStep : Prop :=
  ∀ s m k : Nat, 1 ≤ s → m < 2 ^ s → k < 2 ^ s →
    (outBit s k = true ↔ k / 2 ^ (s - 1) % 2 = 1) ∧
    nextKey s m k < 2 ^ s ∧
    (nextKey s m k).testBit 0 = (outBit s k && m.testBit 0) ∧
    ∀ j, j + 1 < s → (nextKey s m k).testBit (j + 1) = (k.testBit j ^^ (outBit s k && m.testBit (j + 1)))

/-- Truncating before the exclusive-or and after it give the same key, and the one bit truncation drops is the output
bit (40_register.md R123). -/
def Obligations.TruncationPointIsImmaterial : Prop :=
  ∀ s m k : Nat, 1 ≤ s → m < 2 ^ s → k < 2 ^ s →
    nextKey s m k = (if outBit s k then (2 * k ^^^ m) % 2 ^ s else 2 * k % 2 ^ s) ∧
    2 * k = 2 * k % 2 ^ s + (if outBit s k then 2 ^ s else 0)

/-- `Next` is linear over GF(2), key 0 is a fixed point that emits only zeros, and at width 1 the step is `k & m`
(40_register.md R140, R141, R142). -/
def Obligations.NextKeyIsLinearWithFixedPointZero : Prop :=
  (∀ s m k₁ k₂ : Nat, 1 ≤ s → m < 2 ^ s → k₁ < 2 ^ s → k₂ < 2 ^ s →
    nextKey s m (k₁ ^^^ k₂) = nextKey s m k₁ ^^^ nextKey s m k₂) ∧
  (∀ s m n : Nat, nextKey s m 0 = 0 ∧ regSeq s m 0 n = List.replicate n false) ∧
  (∀ m k : Nat, m < 2 → k < 2 → nextKey 1 m k = k &&& m)

/-- `Next(s, m, ·)` is a bijection on the keys exactly when bit 0 of the mask is 1, and then the predecessor of a key is
the formula of 40_register.md R143. -/
def Obligations.NextKeyIsBijectiveIffMaskBitZero : Prop :=
  ∀ s m : Nat, 1 ≤ s → m < 2 ^ s →
    ((∀ k₁ k₂, k₁ < 2 ^ s → k₂ < 2 ^ s → nextKey s m k₁ = nextKey s m k₂ → k₁ = k₂) ↔ m.testBit 0 = true) ∧
    (m.testBit 0 = true → ∀ k, k < 2 ^ s →
      ((nextKey s m k ^^^ (if (nextKey s m k).testBit 0 then m else 0)) >>> 1 |||
        (if (nextKey s m k).testBit 0 then 2 ^ (s - 1) else 0)) = k)

/-- From any key the sequence of keys enters a cycle after at most `2^s - 1` steps (40_register.md R143). -/
def Obligations.KeysEnterACycle : Prop :=
  ∀ s m k : Nat, 1 ≤ s → m < 2 ^ s → k < 2 ^ s →
    ∃ tail period : Nat, tail ≤ 2 ^ s - 1 ∧ 1 ≤ period ∧ tail + period ≤ 2 ^ s ∧
      ∀ n, tail ≤ n → (nextKey s m)^[n + period] k = (nextKey s m)^[n] k

/-- Bit `j` of a register's sequence is the output bit after `j` steps (40_register.md R124). -/
def Obligations.RegSeqIsTheOutputBits : Prop :=
  ∀ s m k n : Nat, (regSeq s m k n).length = n ∧
    ∀ j, j < n → (regSeq s m k n)[j]? = some (outBit s ((nextKey s m)^[j] k))

/-- `AllKeys(s)` has `2^s - 1` members, at least one, and its `i`-th is `i + 1` (40_register.md R120, R125). -/
def Obligations.AllKeysAscendFromOne : Prop :=
  ∀ s : Nat, 1 ≤ s → (allKeys s).length = 2 ^ s - 1 ∧ 1 ≤ (allKeys s).length ∧
    ∀ i, i < 2 ^ s - 1 → (allKeys s)[i]? = some (i + 1)

/-! ### Bit sequences and the comparator -/

/-- `SeqVal` and `SeqOf` are inverse to each other, the value of `len` bits is below `2^len`, the first bit is the most
significant, and sequences of different length are different (00_scope.md R8, 70_reset_and_hazards.md R324). -/
def Obligations.SeqValAndSeqOfAreInverse : Prop :=
  (∀ bs : BitSeq, seqVal bs < 2 ^ bs.length ∧ seqOf bs.length (seqVal bs) = bs ∧
    ∀ (b : Bool), seqVal (b :: bs) = (if b then 2 ^ bs.length else 0) + seqVal bs) ∧
  (∀ len v, v < 2 ^ len → seqVal (seqOf len v) = v ∧ (seqOf len v).length = len) ∧
  (∀ n v m w, v < 2 ^ n → w < 2 ^ m → seqOf n v = seqOf m w → n = m ∧ v = w)

/-- The Hamming distance of two sequences of one length: the number of positions that differ, the population count of
the exclusive-or of the values, at most the length, zero exactly on equal sequences (which is `SeqEq`, and equality of
the values), symmetric, and within the triangle inequality (42_comparator.md R200, R201, R220). -/
def Obligations.HammingIsAMetric : Prop :=
  ∀ p q : BitSeq, p.length = q.length →
    hamming p q = ((List.range p.length).filter (fun j => decide (p[j]? ≠ q[j]?))).length ∧
    hamming p q = ((List.range p.length).filter (fun j => (seqVal p ^^^ seqVal q).testBit j)).length ∧
    hamming p q ≤ p.length ∧
    (hamming p q = 0 ↔ p = q) ∧ (seqEq p q = true ↔ hamming p q = 0) ∧ (seqEq p q = true ↔ seqVal p = seqVal q) ∧
    hamming p q = hamming q p ∧
    ∀ r : BitSeq, r.length = p.length → hamming p r ≤ hamming p q + hamming q r

/-! ### The combinator -/

/-- A pure function of `n` bits to one bit is exactly a table of `2^n` bits: for every such function one table, and only
one, gives its value at every argument list, argument `i` weighing `2^i` (10_state.md R32, 41_combinator.md R161). -/
def Obligations.MixingFunctionsAreTruthTables : Prop :=
  (∀ x : List Bool, packBits x < 2 ^ x.length ∧ ∀ i, (packBits x).testBit i = x.getD i false) ∧
  ∀ (n : Nat) (g : List Bool → Bool),
    ∃ tt, tt < 2 ^ 2 ^ n ∧ (∀ x : List Bool, x.length = n → (MixFn.mk n tt).apply x = g x) ∧
      ∀ tt', tt' < 2 ^ 2 ^ n → (∀ x : List Bool, x.length = n → (MixFn.mk n tt').apply x = g x) → tt' = tt

/-- Bit `j` of `CombSeq` is the mixed bit of the lanes after `j` ticks, before tick `j + 1`, and after `n` bits every
lane has advanced exactly `n` times (41_combinator.md R163, R180). -/
def Obligations.CombSeqMixesBeforeEachTick : Prop :=
  ∀ (lanes : List Reg) (f : MixFn) (n : Nat),
    (combSeq lanes f n).1.length = n ∧
    (∀ j, j < n → (combSeq lanes f n).1[j]? = some (f.apply (outBits (tickAll^[j] lanes)))) ∧
    (combSeq lanes f n).2 = lanes.map (fun r => { r with key := (nextKey r.size r.mask)^[n] r.key })

/-- A one-lane combinator with the identity function reproduces the register's own sequence, and the lane's key
afterwards is `Next^n` (41_combinator.md R182). -/
def Obligations.OneLaneIdentityIsTheRegisterSequence : Prop :=
  ∀ s m k n : Nat,
    combSeq [⟨s, m, k⟩] ⟨1, 0b10⟩ n = (regSeq s m k n, [⟨s, m, (nextKey s m)^[n] k⟩])

/-- `CGENSEQ len=n` gives the same bits and has the same effect on the lanes as `n` successive `CGENBIT`
(41_combinator.md R176). -/
def Obligations.CgenseqIsRepeatedCgenbit : Prop :=
  ∀ (s : State) (f : MixFn), s.lanes ≠ [] → s.mix = some f → f.arity = s.lanes.length →
    s.port.x ≤ s.params.lmax →
      ∃ (t u : State) (bits : BitSeq), exec .cgenseq s = .next t ∧ genBits s.port.x s = some (bits, u) ∧
        t.seq = some bits ∧ t.lanes = u.lanes ∧ t.resp = some ⟨0, seqVal bits, s.port.x, 0⟩ ∧
        { u with seq := t.seq, resp := t.resp } = t

/-! ### The searches -/

/-- `BruteForceKey` for any builder: the smallest key whose combinator reproduces the keystream, or none exactly when no
key does (43_search.md R235). -/
def Obligations.BruteForceFindsTheLeastKey : Prop :=
  ∀ (s m : Nat) (ks : BitSeq) (builder : Reg → List Reg × MixFn),
    (∀ k, bruteForceKey s m ks builder = some k ↔
      1 ≤ k ∧ k ≤ 2 ^ s - 1 ∧
      (combSeq (builder ⟨s, m, k⟩).1 (builder ⟨s, m, k⟩).2 ks.length).1 = ks ∧
      ∀ k', 1 ≤ k' → k' < k → (combSeq (builder ⟨s, m, k'⟩).1 (builder ⟨s, m, k'⟩).2 ks.length).1 ≠ ks) ∧
    (bruteForceKey s m ks builder = none ↔
      ∀ k, 1 ≤ k → k ≤ 2 ^ s - 1 → (combSeq (builder ⟨s, m, k⟩).1 (builder ⟨s, m, k⟩).2 ks.length).1 ≠ ks)

/-- On a keystream that the block's combinator with key `k0 >= 1` in lane `a` produces, `BRUTE` finds a key `k <= k0`
that reproduces it, and `k0` itself when no smaller key does (43_search.md R239). -/
def Obligations.BruteRecoversAReproducingKey : Prop :=
  ∀ (a b n k0 : Nat) (s : State) (r : Reg) (f : MixFn),
    b < s.params.nr → s.reg b = some r → s.mix = some f → f.arity = s.lanes.length → a < s.lanes.length →
    1 ≤ k0 → k0 ≤ 2 ^ r.size - 1 →
    s.ks = some (combSeq (s.lanes.set a ⟨r.size, r.mask, k0⟩) f n).1 →
      ∃ k, exec (.brute a b) s = .next { s with resp := some ⟨0, k, 1, 0⟩ } ∧ 1 ≤ k ∧ k ≤ k0 ∧
        (combSeq (s.lanes.set a ⟨r.size, r.mask, k⟩) f n).1 =
          (combSeq (s.lanes.set a ⟨r.size, r.mask, k0⟩) f n).1 ∧
        ((∀ k', 1 ≤ k' → k' < k0 →
          (combSeq (s.lanes.set a ⟨r.size, r.mask, k'⟩) f n).1 ≠
            (combSeq (s.lanes.set a ⟨r.size, r.mask, k0⟩) f n).1) → k = k0)

/-- The searches read neither the searched register's key nor, for `BRUTE`, the replaced lane: with any other key in
`L[b]` and any other triple in lane `a` the answer is the same (43_search.md R232, R236, R237). -/
def Obligations.SearchesIgnoreTheReplacedKey : Prop :=
  ∀ (a b : Nat) (s t : State) (r r' c : Reg),
    s.reg b = some r → r'.size = r.size → r'.mask = r.mask →
    (exec (.guess b) s = .next t →
      ∃ u, exec (.guess b) { s with regs := s.regs.set b (some r') } = .next u ∧ u.resp = t.resp) ∧
    (exec (.brute a b) s = .next t →
      ∃ u, exec (.brute a b) { s with regs := s.regs.set b (some r'), lanes := s.lanes.set a c } = .next u ∧
        u.resp = t.resp)
end

