-- ==== Sys2Proof/Laws/PerInstr.lean ====
section
/-! SUPPORT. A statement about every command as syntax, proved per constructor: the command word's three fields are the
command's own (30_encoding.md R91). -/

namespace Sys2Proof.Laws.EncodeFields

/-- The fields of a well-formed command's word are its opcode and its two indices. -/
def Statement (i : Instr) : Prop :=
  i.wellFormed = true →
    opField (encode i) = i.op ∧ aField (encode i) = i.fieldA ∧ bField (encode i) = i.fieldB

/-- The fields of a word assembled from three fields that fit. -/
theorem of_fields (o a b : Nat) (ho : o < 256) (ha : a < 16) (hb : b < 16) :
    opField (BitVec.ofNat 16 (o * 256 + a * 16 + b)) = o ∧
      aField (BitVec.ofNat 16 (o * 256 + a * 16 + b)) = a ∧
      bField (BitVec.ofNat 16 (o * 256 + a * 16 + b)) = b := by
  simp only [opField, aField, bField, BitVec.extractLsb_toNat, BitVec.toNat_ofNat, Nat.shiftRight_eq_div_pow]
  omega

/-- An opcode is an 8-bit number. -/
theorem op_lt (i : Instr) : i.op < 256 := by cases i <;> simp [Instr.op]

theorem nop : Statement .nop := fun _ => by decide
theorem stat : Statement .stat := fun _ => by decide
theorem srst : Statement .srst := fun _ => by decide
theorem rinit (a : Nat) : Statement (.rinit a) := fun h => by
  exact of_fields _ a 0 (op_lt _) (by simpa [Instr.wellFormed, indexFits] using h) (by decide)
theorem rinitr (a : Nat) : Statement (.rinitr a) := fun h => by
  exact of_fields _ a 0 (op_lt _) (by simpa [Instr.wellFormed, indexFits] using h) (by decide)
theorem rreset (a b : Nat) : Statement (.rreset a b) := fun h => by
  simp only [Instr.wellFormed, indexFits, Bool.and_eq_true, decide_eq_true_eq] at h
  exact of_fields _ a b (op_lt _) h.1 h.2
theorem rlargest (b : Nat) : Statement (.rlargest b) := fun h => by
  exact of_fields _ 0 b (op_lt _) (by decide) (by simpa [Instr.wellFormed, indexFits] using h)
theorem rout (b : Nat) : Statement (.rout b) := fun h => by
  exact of_fields _ 0 b (op_lt _) (by decide) (by simpa [Instr.wellFormed, indexFits] using h)
theorem rnext (a b : Nat) : Statement (.rnext a b) := fun h => by
  simp only [Instr.wellFormed, indexFits, Bool.and_eq_true, decide_eq_true_eq] at h
  exact of_fields _ a b (op_lt _) h.1 h.2
theorem rgenseq (b : Nat) : Statement (.rgenseq b) := fun h => by
  exact of_fields _ 0 b (op_lt _) (by decide) (by simpa [Instr.wellFormed, indexFits] using h)
theorem rkeyat (b : Nat) : Statement (.rkeyat b) := fun h => by
  exact of_fields _ 0 b (op_lt _) (by decide) (by simpa [Instr.wellFormed, indexFits] using h)
theorem rkey (b : Nat) : Statement (.rkey b) := fun h => by
  exact of_fields _ 0 b (op_lt _) (by decide) (by simpa [Instr.wellFormed, indexFits] using h)
theorem rcfg (b : Nat) : Statement (.rcfg b) := fun h => by
  exact of_fields _ 0 b (op_lt _) (by decide) (by simpa [Instr.wellFormed, indexFits] using h)
theorem cclr : Statement .cclr := fun _ => by decide
theorem cadd (b : Nat) : Statement (.cadd b) := fun h => by
  exact of_fields _ 0 b (op_lt _) (by decide) (by simpa [Instr.wellFormed, indexFits] using h)
theorem cmix : Statement .cmix := fun _ => by decide
theorem couts : Statement .couts := fun _ => by decide
theorem ctick : Statement .ctick := fun _ => by decide
theorem cgenbit : Statement .cgenbit := fun _ => by decide
theorem cgenseq : Statement .cgenseq := fun _ => by decide
theorem clane (a : Nat) : Statement (.clane a) := fun h => by
  exact of_fields _ a 0 (op_lt _) (by simpa [Instr.wellFormed, indexFits] using h) (by decide)
theorem ksld : Statement .ksld := fun _ => by decide
theorem ksseq : Statement .ksseq := fun _ => by decide
theorem ksrd : Statement .ksrd := fun _ => by decide
theorem seqrd : Statement .seqrd := fun _ => by decide
theorem hamm : Statement .hamm := fun _ => by decide
theorem equ : Statement .equ := fun _ => by decide
theorem guess (b : Nat) : Statement (.guess b) := fun h => by
  exact of_fields _ 0 b (op_lt _) (by decide) (by simpa [Instr.wellFormed, indexFits] using h)
theorem brute (a b : Nat) : Statement (.brute a b) := fun h => by
  simp only [Instr.wellFormed, indexFits, Bool.and_eq_true, decide_eq_true_eq] at h
  exact of_fields _ a b (op_lt _) h.1 h.2

end Sys2Proof.Laws.EncodeFields
end

