-- ==== Sys2Proof/Laws/Decode.lean ====
section
/-! SUPPORT. What each form of a command word does when it decodes, and the word of a command as a number. -/

namespace Sys2Proof

/-- The word of a command whose three fields assemble to `n` (30_encoding.md R91). Use it instead of evaluating
`encode`: the sum stays a sum. -/
theorem encode_of_fields (i : Instr) (n : Nat) (h : i.op * 256 + i.fieldA * 16 + i.fieldB = n) :
    encode i = BitVec.ofNat 16 n := congrArg (BitVec.ofNat 16) h

/-- A word is assembled from its three fields (30_encoding.md R91). -/
theorem fields_assemble (w : CommandWord) : BitVec.ofNat 16 (opField w * 256 + aField w * 16 + bField w) = w := by
  apply BitVec.eq_of_toNat_eq
  have hw := w.isLt
  simp only [opField, aField, bField, BitVec.extractLsb_toNat, BitVec.toNat_ofNat, Nat.shiftRight_eq_div_pow]
  omega

/-- The field `op` is the word over 256. -/
theorem opField_eq (w : CommandWord) : opField w = w.toNat / 256 := by
  have hw := w.isLt
  simp only [opField, BitVec.extractLsb_toNat, Nat.shiftRight_eq_div_pow]
  omega

/-- The field `a` is the word's third hexadecimal digit. -/
theorem aField_eq (w : CommandWord) : aField w = w.toNat / 16 % 16 := by
  simp only [aField, BitVec.extractLsb_toNat, Nat.shiftRight_eq_div_pow]

/-- The field `b` is the word's last hexadecimal digit. -/
theorem bField_eq (w : CommandWord) : bField w = w.toNat % 16 := by
  simp only [bField, BitVec.extractLsb_toNat, Nat.shiftRight_eq_div_pow]
  omega

/-- Form `C0` reads its command exactly when both index fields are 0. -/
theorem formC0_eq_command (w : CommandWord) (i j : Instr) :
    formC0 w i = .command j ↔ aField w = 0 ∧ bField w = 0 ∧ i = j := by
  unfold formC0
  split <;> simp_all

/-- Form `CA` reads its command exactly when the field `b` is 0. -/
theorem formCA_eq_command (w : CommandWord) (mk : Nat → Instr) (j : Instr) :
    formCA w mk = .command j ↔ bField w = 0 ∧ mk (aField w) = j := by
  unfold formCA
  split <;> simp_all

/-- Form `CB` reads its command exactly when the field `a` is 0. -/
theorem formCB_eq_command (w : CommandWord) (mk : Nat → Instr) (j : Instr) :
    formCB w mk = .command j ↔ aField w = 0 ∧ mk (bField w) = j := by
  unfold formCB
  split <;> simp_all

/-- Form `CAB` always reads its command. -/
theorem formCAB_eq_command (w : CommandWord) (mk : Nat → Nat → Instr) (j : Instr) :
    formCAB w mk = .command j ↔ mk (aField w) (bField w) = j := by
  simp [formCAB]

end Sys2Proof
end

