-- ==== Sys2Proof/Laws/State.lean ====
section
/-! SUPPORT. One lemma per field per named update of the state, so that no proof unfolds a record update. -/

namespace Sys2Proof.Machine

/-! ### `State.setReg` -/

@[simp] theorem State.setReg_regs (s : State) (i : Nat) (r : Reg) :
    (s.setReg i r).regs = s.regs.set i (some r) := rfl
@[simp] theorem State.setReg_lanes (s : State) (i : Nat) (r : Reg) : (s.setReg i r).lanes = s.lanes := rfl
@[simp] theorem State.setReg_mix (s : State) (i : Nat) (r : Reg) : (s.setReg i r).mix = s.mix := rfl
@[simp] theorem State.setReg_seq (s : State) (i : Nat) (r : Reg) : (s.setReg i r).seq = s.seq := rfl
@[simp] theorem State.setReg_ks (s : State) (i : Nat) (r : Reg) : (s.setReg i r).ks = s.ks := rfl
@[simp] theorem State.setReg_fault (s : State) (i : Nat) (r : Reg) : (s.setReg i r).fault = s.fault := rfl
@[simp] theorem State.setReg_faultCw (s : State) (i : Nat) (r : Reg) : (s.setReg i r).faultCw = s.faultCw := rfl
@[simp] theorem State.setReg_params (s : State) (i : Nat) (r : Reg) : (s.setReg i r).params = s.params := rfl
@[simp] theorem State.setReg_port (s : State) (i : Nat) (r : Reg) : (s.setReg i r).port = s.port := rfl
@[simp] theorem State.setReg_resp (s : State) (i : Nat) (r : Reg) : (s.setReg i r).resp = s.resp := rfl
@[simp] theorem State.setReg_host (s : State) (i : Nat) (r : Reg) : (s.setReg i r).host = s.host := rfl

/-! ### `State.setLanes` -/

@[simp] theorem State.setLanes_regs (s : State) (l : List Reg) : (s.setLanes l).regs = s.regs := rfl
@[simp] theorem State.setLanes_lanes (s : State) (l : List Reg) : (s.setLanes l).lanes = l := rfl
@[simp] theorem State.setLanes_mix (s : State) (l : List Reg) : (s.setLanes l).mix = s.mix := rfl
@[simp] theorem State.setLanes_seq (s : State) (l : List Reg) : (s.setLanes l).seq = s.seq := rfl
@[simp] theorem State.setLanes_ks (s : State) (l : List Reg) : (s.setLanes l).ks = s.ks := rfl
@[simp] theorem State.setLanes_fault (s : State) (l : List Reg) : (s.setLanes l).fault = s.fault := rfl
@[simp] theorem State.setLanes_faultCw (s : State) (l : List Reg) : (s.setLanes l).faultCw = s.faultCw := rfl
@[simp] theorem State.setLanes_params (s : State) (l : List Reg) : (s.setLanes l).params = s.params := rfl
@[simp] theorem State.setLanes_port (s : State) (l : List Reg) : (s.setLanes l).port = s.port := rfl
@[simp] theorem State.setLanes_resp (s : State) (l : List Reg) : (s.setLanes l).resp = s.resp := rfl
@[simp] theorem State.setLanes_host (s : State) (l : List Reg) : (s.setLanes l).host = s.host := rfl

/-! ### `State.setMix` -/

@[simp] theorem State.setMix_regs (s : State) (f : MixFn) : (s.setMix f).regs = s.regs := rfl
@[simp] theorem State.setMix_lanes (s : State) (f : MixFn) : (s.setMix f).lanes = s.lanes := rfl
@[simp] theorem State.setMix_mix (s : State) (f : MixFn) : (s.setMix f).mix = some f := rfl
@[simp] theorem State.setMix_seq (s : State) (f : MixFn) : (s.setMix f).seq = s.seq := rfl
@[simp] theorem State.setMix_ks (s : State) (f : MixFn) : (s.setMix f).ks = s.ks := rfl
@[simp] theorem State.setMix_fault (s : State) (f : MixFn) : (s.setMix f).fault = s.fault := rfl
@[simp] theorem State.setMix_faultCw (s : State) (f : MixFn) : (s.setMix f).faultCw = s.faultCw := rfl
@[simp] theorem State.setMix_params (s : State) (f : MixFn) : (s.setMix f).params = s.params := rfl
@[simp] theorem State.setMix_port (s : State) (f : MixFn) : (s.setMix f).port = s.port := rfl
@[simp] theorem State.setMix_resp (s : State) (f : MixFn) : (s.setMix f).resp = s.resp := rfl
@[simp] theorem State.setMix_host (s : State) (f : MixFn) : (s.setMix f).host = s.host := rfl

/-! ### `State.clearCombinator` -/

@[simp] theorem State.clearCombinator_regs (s : State) : s.clearCombinator.regs = s.regs := rfl
@[simp] theorem State.clearCombinator_lanes (s : State) : s.clearCombinator.lanes = [] := rfl
@[simp] theorem State.clearCombinator_mix (s : State) : s.clearCombinator.mix = none := rfl
@[simp] theorem State.clearCombinator_seq (s : State) : s.clearCombinator.seq = s.seq := rfl
@[simp] theorem State.clearCombinator_ks (s : State) : s.clearCombinator.ks = s.ks := rfl
@[simp] theorem State.clearCombinator_fault (s : State) : s.clearCombinator.fault = s.fault := rfl
@[simp] theorem State.clearCombinator_faultCw (s : State) : s.clearCombinator.faultCw = s.faultCw := rfl
@[simp] theorem State.clearCombinator_params (s : State) : s.clearCombinator.params = s.params := rfl
@[simp] theorem State.clearCombinator_port (s : State) : s.clearCombinator.port = s.port := rfl
@[simp] theorem State.clearCombinator_resp (s : State) : s.clearCombinator.resp = s.resp := rfl
@[simp] theorem State.clearCombinator_host (s : State) : s.clearCombinator.host = s.host := rfl

/-! ### `State.setSeq` -/

@[simp] theorem State.setSeq_regs (s : State) (b : BitSeq) : (s.setSeq b).regs = s.regs := rfl
@[simp] theorem State.setSeq_lanes (s : State) (b : BitSeq) : (s.setSeq b).lanes = s.lanes := rfl
@[simp] theorem State.setSeq_mix (s : State) (b : BitSeq) : (s.setSeq b).mix = s.mix := rfl
@[simp] theorem State.setSeq_seq (s : State) (b : BitSeq) : (s.setSeq b).seq = some b := rfl
@[simp] theorem State.setSeq_ks (s : State) (b : BitSeq) : (s.setSeq b).ks = s.ks := rfl
@[simp] theorem State.setSeq_fault (s : State) (b : BitSeq) : (s.setSeq b).fault = s.fault := rfl
@[simp] theorem State.setSeq_faultCw (s : State) (b : BitSeq) : (s.setSeq b).faultCw = s.faultCw := rfl
@[simp] theorem State.setSeq_params (s : State) (b : BitSeq) : (s.setSeq b).params = s.params := rfl
@[simp] theorem State.setSeq_port (s : State) (b : BitSeq) : (s.setSeq b).port = s.port := rfl
@[simp] theorem State.setSeq_resp (s : State) (b : BitSeq) : (s.setSeq b).resp = s.resp := rfl
@[simp] theorem State.setSeq_host (s : State) (b : BitSeq) : (s.setSeq b).host = s.host := rfl

/-! ### `State.setKs` -/

@[simp] theorem State.setKs_regs (s : State) (b : BitSeq) : (s.setKs b).regs = s.regs := rfl
@[simp] theorem State.setKs_lanes (s : State) (b : BitSeq) : (s.setKs b).lanes = s.lanes := rfl
@[simp] theorem State.setKs_mix (s : State) (b : BitSeq) : (s.setKs b).mix = s.mix := rfl
@[simp] theorem State.setKs_seq (s : State) (b : BitSeq) : (s.setKs b).seq = s.seq := rfl
@[simp] theorem State.setKs_ks (s : State) (b : BitSeq) : (s.setKs b).ks = some b := rfl
@[simp] theorem State.setKs_fault (s : State) (b : BitSeq) : (s.setKs b).fault = s.fault := rfl
@[simp] theorem State.setKs_faultCw (s : State) (b : BitSeq) : (s.setKs b).faultCw = s.faultCw := rfl
@[simp] theorem State.setKs_params (s : State) (b : BitSeq) : (s.setKs b).params = s.params := rfl
@[simp] theorem State.setKs_port (s : State) (b : BitSeq) : (s.setKs b).port = s.port := rfl
@[simp] theorem State.setKs_resp (s : State) (b : BitSeq) : (s.setKs b).resp = s.resp := rfl
@[simp] theorem State.setKs_host (s : State) (b : BitSeq) : (s.setKs b).host = s.host := rfl

/-! ### `State.answered` -/

@[simp] theorem State.answered_regs (s : State) (r0 r1 r2 : Nat) : (s.answered r0 r1 r2).regs = s.regs := rfl
@[simp] theorem State.answered_lanes (s : State) (r0 r1 r2 : Nat) : (s.answered r0 r1 r2).lanes = s.lanes := rfl
@[simp] theorem State.answered_mix (s : State) (r0 r1 r2 : Nat) : (s.answered r0 r1 r2).mix = s.mix := rfl
@[simp] theorem State.answered_seq (s : State) (r0 r1 r2 : Nat) : (s.answered r0 r1 r2).seq = s.seq := rfl
@[simp] theorem State.answered_ks (s : State) (r0 r1 r2 : Nat) : (s.answered r0 r1 r2).ks = s.ks := rfl
@[simp] theorem State.answered_fault (s : State) (r0 r1 r2 : Nat) : (s.answered r0 r1 r2).fault = s.fault := rfl
@[simp] theorem State.answered_faultCw (s : State) (r0 r1 r2 : Nat) :
    (s.answered r0 r1 r2).faultCw = s.faultCw := rfl
@[simp] theorem State.answered_params (s : State) (r0 r1 r2 : Nat) : (s.answered r0 r1 r2).params = s.params := rfl
@[simp] theorem State.answered_port (s : State) (r0 r1 r2 : Nat) : (s.answered r0 r1 r2).port = s.port := rfl
@[simp] theorem State.answered_resp (s : State) (r0 r1 r2 : Nat) :
    (s.answered r0 r1 r2).resp = some ⟨0, r0, r1, r2⟩ := rfl
@[simp] theorem State.answered_host (s : State) (r0 r1 r2 : Nat) : (s.answered r0 r1 r2).host = s.host := rfl

/-! ### `State.faulted` -/

@[simp] theorem State.faulted_regs (s : State) (c : Cause) : (s.faulted c).regs = s.regs := rfl
@[simp] theorem State.faulted_lanes (s : State) (c : Cause) : (s.faulted c).lanes = s.lanes := rfl
@[simp] theorem State.faulted_mix (s : State) (c : Cause) : (s.faulted c).mix = s.mix := rfl
@[simp] theorem State.faulted_seq (s : State) (c : Cause) : (s.faulted c).seq = s.seq := rfl
@[simp] theorem State.faulted_ks (s : State) (c : Cause) : (s.faulted c).ks = s.ks := rfl
@[simp] theorem State.faulted_fault (s : State) (c : Cause) :
    (s.faulted c).fault = if s.fault = 0 then c.code else s.fault := rfl
@[simp] theorem State.faulted_faultCw (s : State) (c : Cause) :
    (s.faulted c).faultCw = if s.fault = 0 then s.port.cw else s.faultCw := rfl
@[simp] theorem State.faulted_params (s : State) (c : Cause) : (s.faulted c).params = s.params := rfl
@[simp] theorem State.faulted_port (s : State) (c : Cause) : (s.faulted c).port = s.port := rfl
@[simp] theorem State.faulted_resp (s : State) (c : Cause) : (s.faulted c).resp = some ⟨c.code, 0, 0, 0⟩ := rfl
@[simp] theorem State.faulted_host (s : State) (c : Cause) : (s.faulted c).host = s.host := rfl

/-! ### `State.cleared` -/

@[simp] theorem State.cleared_regs (s : State) : s.cleared.regs = List.replicate s.params.nr none := rfl
@[simp] theorem State.cleared_lanes (s : State) : s.cleared.lanes = [] := rfl
@[simp] theorem State.cleared_mix (s : State) : s.cleared.mix = none := rfl
@[simp] theorem State.cleared_seq (s : State) : s.cleared.seq = none := rfl
@[simp] theorem State.cleared_ks (s : State) : s.cleared.ks = none := rfl
@[simp] theorem State.cleared_fault (s : State) : s.cleared.fault = 0 := rfl
@[simp] theorem State.cleared_faultCw (s : State) : s.cleared.faultCw = 0 := rfl
@[simp] theorem State.cleared_params (s : State) : s.cleared.params = s.params := rfl
@[simp] theorem State.cleared_port (s : State) : s.cleared.port = s.port := rfl
@[simp] theorem State.cleared_resp (s : State) : s.cleared.resp = s.resp := rfl
@[simp] theorem State.cleared_host (s : State) : s.cleared.host = s.host := rfl

/-! ### `State.resetInput` -/

@[simp] theorem State.resetInput_regs (s : State) : s.resetInput.regs = List.replicate s.params.nr none := rfl
@[simp] theorem State.resetInput_lanes (s : State) : s.resetInput.lanes = [] := rfl
@[simp] theorem State.resetInput_mix (s : State) : s.resetInput.mix = none := rfl
@[simp] theorem State.resetInput_seq (s : State) : s.resetInput.seq = none := rfl
@[simp] theorem State.resetInput_ks (s : State) : s.resetInput.ks = none := rfl
@[simp] theorem State.resetInput_fault (s : State) : s.resetInput.fault = 0 := rfl
@[simp] theorem State.resetInput_faultCw (s : State) : s.resetInput.faultCw = 0 := rfl
@[simp] theorem State.resetInput_params (s : State) : s.resetInput.params = s.params := rfl
@[simp] theorem State.resetInput_port (s : State) : s.resetInput.port = s.port := rfl
@[simp] theorem State.resetInput_resp (s : State) : s.resetInput.resp = none := rfl
@[simp] theorem State.resetInput_host (s : State) : s.resetInput.host = s.host := rfl

/-! ### `State.present` -/

@[simp] theorem State.present_regs (s : State) (p : Packet) : (s.present p).regs = s.regs := rfl
@[simp] theorem State.present_lanes (s : State) (p : Packet) : (s.present p).lanes = s.lanes := rfl
@[simp] theorem State.present_mix (s : State) (p : Packet) : (s.present p).mix = s.mix := rfl
@[simp] theorem State.present_seq (s : State) (p : Packet) : (s.present p).seq = s.seq := rfl
@[simp] theorem State.present_ks (s : State) (p : Packet) : (s.present p).ks = s.ks := rfl
@[simp] theorem State.present_fault (s : State) (p : Packet) : (s.present p).fault = s.fault := rfl
@[simp] theorem State.present_faultCw (s : State) (p : Packet) : (s.present p).faultCw = s.faultCw := rfl
@[simp] theorem State.present_params (s : State) (p : Packet) : (s.present p).params = s.params := rfl
@[simp] theorem State.present_port (s : State) (p : Packet) : (s.present p).port = p := rfl
@[simp] theorem State.present_resp (s : State) (p : Packet) : (s.present p).resp = s.resp := rfl
@[simp] theorem State.present_host (s : State) (p : Packet) : (s.present p).host = s.host := rfl

/-! ### `State.hostLeft` -/

@[simp] theorem State.hostLeft_regs (s : State) (rest : List HostEvent) : (s.hostLeft rest).regs = s.regs := rfl
@[simp] theorem State.hostLeft_lanes (s : State) (rest : List HostEvent) : (s.hostLeft rest).lanes = s.lanes := rfl
@[simp] theorem State.hostLeft_mix (s : State) (rest : List HostEvent) : (s.hostLeft rest).mix = s.mix := rfl
@[simp] theorem State.hostLeft_seq (s : State) (rest : List HostEvent) : (s.hostLeft rest).seq = s.seq := rfl
@[simp] theorem State.hostLeft_ks (s : State) (rest : List HostEvent) : (s.hostLeft rest).ks = s.ks := rfl
@[simp] theorem State.hostLeft_fault (s : State) (rest : List HostEvent) : (s.hostLeft rest).fault = s.fault := rfl
@[simp] theorem State.hostLeft_faultCw (s : State) (rest : List HostEvent) :
    (s.hostLeft rest).faultCw = s.faultCw := rfl
@[simp] theorem State.hostLeft_params (s : State) (rest : List HostEvent) :
    (s.hostLeft rest).params = s.params := rfl
@[simp] theorem State.hostLeft_port (s : State) (rest : List HostEvent) : (s.hostLeft rest).port = s.port := rfl
@[simp] theorem State.hostLeft_resp (s : State) (rest : List HostEvent) : (s.hostLeft rest).resp = s.resp := rfl
@[simp] theorem State.hostLeft_host (s : State) (rest : List HostEvent) : (s.hostLeft rest).host = rest := rfl

/-! ### The register file -/

/-- The write of a register that exists is read back. -/
theorem State.reg_setReg_self (s : State) (i : Nat) (r : Reg) (h : i < s.regs.length) : (s.setReg i r).reg i = some r := by
  simp [State.reg, h]

/-- The write of a register leaves every other one (10_state.md R23). -/
theorem State.reg_setReg_other (s : State) (i j : Nat) (r : Reg) (h : i ≠ j) : (s.setReg i r).reg j = s.reg j := by
  simp [State.reg, h]

/-- A valid register is an entry of the register file. -/
theorem State.mem_of_reg (s : State) (i : Nat) (r : Reg) (h : s.reg i = some r) : some r ∈ s.regs := by
  have hj : s.regs[i]? = some (some r) := Option.join_eq_some_iff.mp h
  exact List.mem_of_getElem? hj

/-- Reading registers looks at the register file alone. -/
theorem State.reg_congr (s t : State) (h : s.regs = t.regs) (i : Nat) : s.reg i = t.reg i := by
  simp [State.reg, h]

/-- `count` looks at the lanes alone. -/
@[simp] theorem State.count_eq (s : State) : s.count = s.lanes.length := rfl

end Sys2Proof.Machine
end

