-- ==== Sys2Proof/Laws/Ops.lean ====
section
/-! SUPPORT. One lemma per shared operation that says everything it can do. -/

namespace Sys2Proof.Machine

/-- A fault's status code is not `OK` and is a code of 60_exceptions.md R270. -/
@[simp] theorem Cause.code_ne_zero (c : Cause) : c.code ≠ 0#8 := by cases c <;> decide

/-- A fault's status code is at most 8 (60_exceptions.md R270). -/
theorem Cause.code_le (c : Cause) : c.code.toNat ≤ 8 := by cases c <;> decide

/-- `respond` answers the state with the response and nothing else changed. -/
theorem respond_eq (r0 r1 r2 : Nat) (s : State) : respond r0 r1 r2 s = .next (s.answered r0 r1 r2) := rfl

/-- `raise` answers the state with the fault entered. -/
theorem raise_eq (c : Cause) (s : State) : raise c s = .next (s.faulted c) := rfl

/-- `CheckConfigured` answers the stored function of a combinator with a lane, or `NotConfigured`. -/
theorem State.configured_cases (s : State) :
    (∃ f, s.lanes ≠ [] ∧ s.mix = some f ∧ s.configured = .ok f) ∨
      ((s.lanes = [] ∨ s.mix = none) ∧ s.configured = .error .notConfigured) := by
  by_cases h : s.lanes = []
  · exact .inr ⟨.inl h, by simp [State.configured, h]⟩
  · cases hm : s.mix with
    | none => exact .inr ⟨.inr rfl, by simp [State.configured, hm]⟩
    | some f => exact .inl ⟨f, h, rfl, by simp [State.configured, hm, h]⟩

/-- `CheckConfigured` and `CheckArity` answer the stored function where its arity is the number of lanes, or the fault. -/
theorem State.applicable_cases (s : State) :
    (∃ f, s.lanes ≠ [] ∧ s.mix = some f ∧ f.arity = s.lanes.length ∧ s.applicable = .ok f) ∨
      ((s.lanes = [] ∨ s.mix = none) ∧ s.applicable = .error .notConfigured) ∨
      (∃ f, s.lanes ≠ [] ∧ s.mix = some f ∧ f.arity ≠ s.lanes.length ∧
        s.applicable = .error .arityMismatch) := by
  obtain ⟨f, hl, hm, hc⟩ | ⟨hu, hc⟩ := s.configured_cases
  · by_cases ha : f.arity = s.lanes.length
    · exact .inl ⟨f, hl, hm, ha, by simp [State.applicable, hc, ha]⟩
    · exact .inr (.inr ⟨f, hl, hm, ha, by simp [State.applicable, hc, ha]⟩)
  · exact .inr (.inl ⟨hu, by simp [State.applicable, hc]⟩)

/-- The comparator's operands: both buffers at one length, or the fault. -/
theorem State.comparable_cases (s : State) :
    (∃ q k, s.seq = some q ∧ s.ks = some k ∧ q.length = k.length ∧ s.comparable = .ok (q, k)) ∨
      ((s.seq = none ∨ s.ks = none) ∧ s.comparable = .error .notLoaded) ∨
      (∃ q k, s.seq = some q ∧ s.ks = some k ∧ q.length ≠ k.length ∧
        s.comparable = .error .lengthMismatch) := by
  cases hq : s.seq with
  | none => exact .inr (.inl ⟨.inl rfl, by simp [State.comparable, hq]⟩)
  | some q =>
    cases hk : s.ks with
    | none => exact .inr (.inl ⟨.inr rfl, by simp [State.comparable, hq, hk]⟩)
    | some k =>
      by_cases hl : q.length = k.length
      · exact .inl ⟨q, k, rfl, rfl, hl, by simp [State.comparable, hq, hk, hl]⟩
      · exact .inr (.inr ⟨q, k, rfl, rfl, hl, by simp [State.comparable, hq, hk, hl]⟩)

/-- The only fault of `CheckConfigured` (41_combinator.md R164). -/
theorem State.configured_error {s : State} {c : Cause} (h : s.configured = .error c) : c = .notConfigured := by
  obtain ⟨f, -, -, hc⟩ | ⟨-, hc⟩ := s.configured_cases <;> simp_all

/-- The only faults of the two configuration tests (41_combinator.md R164). -/
theorem State.applicable_error {s : State} {c : Cause} (h : s.applicable = .error c) :
    c = .notConfigured ∨ c = .arityMismatch := by
  obtain ⟨f, -, -, -, hc⟩ | ⟨-, hc⟩ | ⟨f, -, -, -, hc⟩ := s.applicable_cases <;> simp_all

/-- The only faults of the comparator (42_comparator.md R214, R215). -/
theorem State.comparable_error {s : State} {c : Cause} (h : s.comparable = .error c) :
    c = .notLoaded ∨ c = .lengthMismatch := by
  obtain ⟨q, k, -, -, -, hc⟩ | ⟨-, hc⟩ | ⟨q, k, -, -, -, hc⟩ := s.comparable_cases <;> simp_all

/-- The cleared state is the reset state with the model's own ports kept. -/
theorem State.cleared_eq (s : State) :
    s.cleared = { State.resetOf s.params with port := s.port, resp := s.resp, host := s.host } := rfl

end Sys2Proof.Machine
end

