-- ==== Sys2Proof/Laws/Exec.lean ====
section
/-! SUPPORT. The inversion of `exec`: every command either raises one of its faults or answers, and what it leaves
unchanged when it answers. -/

namespace Sys2Proof.Machine

/-- The state before the response of a command that answers `OK`: what the command cannot have changed. -/
structure Answers (i : Instr) (s u : State) : Prop where
  params : u.params = s.params
  port : u.port = s.port
  host : u.host = s.host
  fault : i ≠ .srst → u.fault = s.fault
  faultCw : i ≠ .srst → u.faultCw = s.faultCw
  reg : i ≠ .srst → ∀ j, destReg i ≠ some j → u.reg j = s.reg j
  regs : i ≠ .srst → destReg i = none → u.regs = s.regs
  lanes : writesLanes i = false → u.lanes = s.lanes
  mix : writesMix i = false → u.mix = s.mix
  seq : writesSeq i = false → u.seq = s.seq
  ks : writesKs i = false → u.ks = s.ks
  pure : isPure i = true → u = s

/-- What a command can do: raise a fault of its column of 60_exceptions.md R285, or answer. -/
theorem exec_cases (i : Instr) (s : State) :
    (∃ c ∈ mayRaise i, exec i s = .next (s.faulted c)) ∨
      ∃ (u : State) (r0 r1 r2 : Nat), exec i s = .next (u.answered r0 r1 r2) ∧ Answers i s u := by
  cases i
  all_goals simp only [exec, execNop, execStat, execSrst, execRinit, execRinitr, execRreset, execRlargest, execRout,
    execRnext, execRgenseq, execRkeyat, execRkey, execRcfg, execCclr, execCadd, execCmix, execCouts, execCtick,
    execCgenbit, execCgenseq, execClane, execKsld, execKsseq, execKsrd, execSeqrd, execHamm, execEqu, execGuess,
    execBrute, mayRaise]
  all_goals repeat' split
  all_goals first
    | (refine .inl ⟨_, ?_, rfl⟩; simp; done)
    | (have hc := State.configured_error ‹_›; subst hc; refine .inl ⟨_, ?_, rfl⟩; simp)
    | (have hc := State.applicable_error ‹_›; refine .inl ⟨_, ?_, rfl⟩; rcases hc with rfl | rfl <;> simp)
    | (have hc := State.comparable_error ‹_›; refine .inl ⟨_, ?_, rfl⟩; rcases hc with rfl | rfl <;> simp)
    | (refine .inr ⟨_, _, _, _, rfl, ?_⟩
       constructor <;> simp_all [destReg, writesLanes, writesMix, writesSeq, writesKs, isPure, State.reg])

/-- A command always answers a next state (30_encoding.md R94). -/
theorem exec_next (i : Instr) (s : State) : ∃ t, exec i s = .next t := by
  obtain ⟨c, -, h⟩ | ⟨u, r0, r1, r2, h, -⟩ := exec_cases i s
  · exact ⟨_, h⟩
  · exact ⟨_, h⟩

end Sys2Proof.Machine
end

