-- ==== Sys2Proof/Laws/Functions.lean ====
section
/-! SUPPORT. The small lemmas of the pure functions. -/

namespace Sys2Proof.Machine

@[simp] theorem bitVal_true : bitVal true = 1 := rfl
@[simp] theorem bitVal_false : bitVal false = 0 := rfl

/-- A bit is at most 1. -/
theorem bitVal_le (b : Bool) : bitVal b ≤ 1 := by cases b <;> decide

/-- A bit's value decides the bit. -/
theorem bitVal_inj {a b : Bool} (h : bitVal a = bitVal b) : a = b := by
  cases a <;> cases b <;> simp_all [bitVal]

/-- The value read so far is carried to the left of what follows. -/
theorem seqVal_foldl (bs : BitSeq) (v : Nat) :
    bs.foldl (fun v b => 2 * v + bitVal b) v = v * 2 ^ bs.length + seqVal bs := by
  induction bs generalizing v with
  | nil => simp [seqVal]
  | cons b bs ih =>
    have hs : seqVal (b :: bs) = bitVal b * 2 ^ bs.length + seqVal bs := by
      have h : seqVal (b :: bs) = bs.foldl (fun v b => 2 * v + bitVal b) (2 * 0 + bitVal b) := rfl
      rw [h, ih]
      simp
    rw [List.foldl_cons, ih, hs, List.length_cons, pow_succ]
    ring

@[simp] theorem seqVal_nil : seqVal [] = 0 := rfl

/-- The first bit is the most significant (00_scope.md R8). -/
theorem seqVal_cons (b : Bool) (bs : BitSeq) : seqVal (b :: bs) = bitVal b * 2 ^ bs.length + seqVal bs := by
  have h : seqVal (b :: bs) = bs.foldl (fun v b => 2 * v + bitVal b) (2 * 0 + bitVal b) := rfl
  rw [h, seqVal_foldl]
  simp

/-- A sequence's value has at most its length of bits. -/
theorem seqVal_lt (bs : BitSeq) : seqVal bs < 2 ^ bs.length := by
  induction bs with
  | nil => simp
  | cons b bs ih =>
    rw [seqVal_cons, List.length_cons, pow_succ]
    have := bitVal_le b
    nlinarith [Nat.mul_le_mul_right (2 ^ bs.length) this]

@[simp] theorem seqOf_length (len v : Nat) : (seqOf len v).length = len := by simp [seqOf]

@[simp] theorem regSeq_length (s m k n : Nat) : (regSeq s m k n).length = n := by
  induction n generalizing k with
  | zero => rfl
  | succ n ih => simp [regSeq, ih]

@[simp] theorem outBits_length (lanes : List Reg) : (outBits lanes).length = lanes.length := by simp [outBits]

@[simp] theorem tickAll_length (lanes : List Reg) : (tickAll lanes).length = lanes.length := by simp [tickAll]

/-- `CombSeq` gives as many bits as it is asked for. -/
@[simp] theorem combSeq_length (lanes : List Reg) (f : MixFn) (n : Nat) : (combSeq lanes f n).1.length = n := by
  induction n generalizing lanes with
  | zero => rfl
  | succ n ih => simp [combSeq, ih]

/-- `CombSeq` keeps the number of lanes. -/
@[simp] theorem combSeq_lanes_length (lanes : List Reg) (f : MixFn) (n : Nat) :
    (combSeq lanes f n).2.length = lanes.length := by
  induction n generalizing lanes with
  | zero => rfl
  | succ n ih => simp [combSeq, ih]

/-- A packing of `n` bits is below `2^n`. -/
theorem packBits_lt (x : List Bool) : packBits x < 2 ^ x.length := by
  induction x with
  | nil => simp [packBits]
  | cons b x ih =>
    have := bitVal_le b
    simp only [packBits, List.length_cons, pow_succ]
    omega

/-- A key is in `AllKeys` when it is in `1..2^s - 1` (40_register.md R125). -/
theorem mem_allKeys (s k : Nat) : k ∈ allKeys s ↔ 1 ≤ k ∧ k ≤ 2 ^ s - 1 := by
  simp only [allKeys, largestKey, List.mem_range'_1]
  omega

/-- The successor key stays within the size (10_state.md R22). -/
theorem nextKey_lt (s m k : Nat) (hm : m < 2 ^ s) : nextKey s m k < 2 ^ s := by
  have ht : trunc s (k <<< 1) < 2 ^ s := Nat.mod_lt _ (Nat.two_pow_pos s)
  unfold nextKey
  split
  · exact Nat.xor_lt_two_pow ht hm
  · exact ht

/-- The Hamming distance is at most the length of the first sequence. -/
theorem hamming_le (p q : BitSeq) : hamming p q ≤ p.length := by
  unfold hamming
  refine le_trans List.countP_le_length ?_
  simp [List.length_zip]

end Sys2Proof.Machine
end

