-- ==== Sys2Proof/Tests/Slice0.lean ====
section
/-! SUPPORT. The model's own tests: form and decoding, one step per command with the values of 95_test_vectors.md, and
for each obligation with hypotheses a state and operands that meet them, clause by clause, at the edges of their ranges. -/

namespace Sys2Proof.Tests

set_option Elab.async false

open Sys2Proof.Machine

/-! ### Helpers -/

/-- The next state of a result, if it is one. -/
def after : Result → Option State
  | .next s => some s
  | .fault _ => none
  | .refused _ => none

/-- The response a result leaves on the response port. -/
def answer (r : Result) : Option Response := (after r).bind (·.resp)

/-- The state with operands on the command port. -/
def State.ops (s : State) (x y z rnd : Nat) : State := { s with port := { s.port with x := x, y := y, z := z, rnd := rnd } }

/-- The host presents one command, and nothing after it. -/
def present (cw : CommandWord) (x y z rnd : Nat) (s : State) : State := { s with host := [.command ⟨cw, x, y, z, rnd⟩] }

/-- One step in which the host presents one command. -/
def send (cw : CommandWord) (x y z rnd : Nat) (s : State) : Result := step (present cw x y z rnd s)

/-- `A` of 95_test_vectors.md V-C1. -/
def regA : Reg := ⟨4, 0b0011, 0b1001⟩

/-- `B` of 95_test_vectors.md V-C1. -/
def regB : Reg := ⟨4, 0b1001, 0b1101⟩

/-- The register of 95_test_vectors.md V-R10. -/
def regC : Reg := ⟨4, 0b1010, 0b0110⟩

/-- The register of 95_test_vectors.md V-S1, key 6. -/
def regD : Reg := ⟨3, 0b011, 0b110⟩

/-- "01001110". -/
def seqC : BitSeq := [false, true, false, false, true, true, true, false]

/-- "01101010". -/
def ksC : BitSeq := [false, true, true, false, true, false, true, false]

/-- A block in use: four registers, the combinator of V-C1 with AND, both buffers loaded. -/
def busy : State :=
  { State.reset with
    regs := [some regA, some regB, some regC, some regD, none, none, none, none]
    lanes := [regA, regB]
    mix := some ⟨2, 0b1000⟩
    seq := some seqC
    ks := some ksC }

/-- `busy` after a fault: the record of program P5. -/
def faulty : State := { busy with fault := 7, faultCw := 0x1800 }

/-- One lane, identity function, `L[0]` the register `r`, keystream `k`. -/
def single (r : Reg) (k : BitSeq) : State :=
  { State.reset with
    regs := [some r, none, none, none, none, none, none, none]
    lanes := [r]
    mix := some ⟨1, 0b10⟩
    ks := some k }

/-! ### Form -/

/-- An index of 16 is no 4-bit number, in every field of every form; 15 is one. -/
theorem test_wellFormed_index :
    (∀ mk ∈ [Instr.rinit, .rinitr, .rlargest, .rout, .rgenseq, .rkeyat, .rkey, .rcfg, .cadd, .clane, .guess],
      (mk 16).wellFormed = false ∧ (mk 15).wellFormed = true) ∧
    (∀ mk ∈ [Instr.rreset, .rnext, .brute],
      (mk 16 0).wellFormed = false ∧ (mk 0 16).wellFormed = false ∧ (mk 15 15).wellFormed = true) := by
  simp [Instr.wellFormed, indexFits]

/-- An operand of `2^XW` does not fit its port, whichever it is; `2^XW - 1` does. -/
theorem test_wellFormed_packet :
    Packet.fits Params.reference ⟨0, 2 ^ 256, 0, 0, 0⟩ = false ∧
    Packet.fits Params.reference ⟨0, 0, 2 ^ 256, 0, 0⟩ = false ∧
    Packet.fits Params.reference ⟨0, 0, 0, 2 ^ 256, 0⟩ = false ∧
    Packet.fits Params.reference ⟨0, 0, 0, 0, 2 ^ 256⟩ = false ∧
    Packet.fits Params.reference ⟨0xFFFF, 2 ^ 256 - 1, 2 ^ 256 - 1, 2 ^ 256 - 1, 2 ^ 256 - 1⟩ = true := by
  decide +kernel

/-! ### Decoding: words written out from the fields of 30_encoding.md R91 and the opcodes of R97 -/

theorem test_decode_system :
    decode 0b0000000000000000 = .command .nop ∧ decode 0b0000000100000000 = .command .stat ∧
    decode 0b0000001000000000 = .command .srst := by decide +kernel

theorem test_decode_register :
    decode 0b0001000000100000 = .command (.rinit 2) ∧ decode 0b0001000110010000 = .command (.rinitr 9) ∧
    decode 0b0001001000110010 = .command (.rreset 3 2) ∧ decode 0b0001001100001000 = .command (.rlargest 8) ∧
    decode 0b0001010000000010 = .command (.rout 2) ∧ decode 0b0001010100110010 = .command (.rnext 3 2) ∧
    decode 0b0001011000000001 = .command (.rgenseq 1) ∧ decode 0b0001011100000100 = .command (.rkeyat 4) ∧
    decode 0b0001100000001001 = .command (.rkey 9) ∧ decode 0b0001100100001111 = .command (.rcfg 15) := by decide +kernel

theorem test_decode_combinator :
    decode 0b0010000000000000 = .command .cclr ∧ decode 0b0010000100000001 = .command (.cadd 1) ∧
    decode 0b0010001000000000 = .command .cmix ∧ decode 0b0010001100000000 = .command .couts ∧
    decode 0b0010010000000000 = .command .ctick ∧ decode 0b0010010100000000 = .command .cgenbit ∧
    decode 0b0010011000000000 = .command .cgenseq ∧ decode 0b0010011100010000 = .command (.clane 1) := by decide +kernel

theorem test_decode_comparator :
    decode 0b0011000000000000 = .command .ksld ∧ decode 0b0011000100000000 = .command .ksseq ∧
    decode 0b0011001000000000 = .command .ksrd ∧ decode 0b0011001100000000 = .command .seqrd ∧
    decode 0b0011010000000000 = .command .hamm ∧ decode 0b0011010100000000 = .command .equ := by decide +kernel

theorem test_decode_search :
    decode 0b0100000000000111 = .command (.guess 7) ∧ decode 0b0100000100100101 = .command (.brute 2 5) ∧
    decode 0b0100000100010100 = .command (.brute 1 4) := by decide +kernel

/-- 95_test_vectors.md V-E1: the words of the assembling examples. -/
theorem test_encode :
    encode (.rinit 2) = 0x1020 ∧ encode (.rnext 3 2) = 0x1532 ∧ encode (.brute 1 4) = 0x4114 ∧
    encode .cgenseq = 0x2600 ∧ encode (.clane 7) = 0x2770 ∧ encode (.guess 7) = 0x4007 ∧ encode .srst = 0x0200 := by
  decide +kernel

/-- 95_test_vectors.md V-E3: the illegal words. -/
theorem test_decode_illegal :
    [0x0300, 0x1A00, 0x2800, 0x3600, 0x4200, 0xFF00, (0xFFFF : CommandWord)].all
      (fun w => decode w = .illegal .unassignedOpcode) = true ∧
    [0x2501, 0x1810, 0x1001, (0x0001 : CommandWord)].all (fun w => decode w = .illegal .unusedFieldNonzero) = true := by
  decide +kernel

/-- The table's words through the host's two functions. -/
theorem test_tableWord :
    decodeTableWord 16 0x1532 = some (.rnext 3 2) ∧ decodeTableWord 16 0x0300 = none ∧
    answer (step (State.reset.withFetchWord 16 0x1800)) = some ⟨7, 0, 0, 0⟩ ∧
    (after (step (State.reset.withFetchWord 16 0x1800))).map (·.faultCw) = some 0x1800 := by decide +kernel

/-! ### One step per command, from the vectors of 95_test_vectors.md -/

/-- V-R1, V-R3, V-R4, V-R5: `Next`. -/
theorem test_next :
    nextKey 4 0b1010 0b0110 = 0b1100 ∧ nextKey 4 0b1010 0b1100 = 0b0010 ∧ nextKey 4 0b1001 0b1000 = 0b1001 ∧
    nextKey 1 0 1 = 0 ∧ nextKey 1 1 1 = 1 ∧ nextKey 8 0x1D 0xFF = 0xE3 ∧
    nextKey 32 0x80000001 0x80000000 = 0x80000001 ∧ nextKey 32 0x80000001 0x7FFFFFFF = 0xFFFFFFFE := by
  decide +kernel

/-- P5 steps 1 and 39 give zeros; P2 step 22 gives `R2 = 0x207`. -/
theorem test_stat :
    answer (send 0x0100 0 0 0 0 State.reset) = some ⟨0, 0, 0, 0⟩ ∧
    answer (send 0x0100 0 0 0 0 busy) = some ⟨0, 0, 0, 0x207⟩ ∧
    answer (send 0x0100 0 0 0 0 faulty) = some ⟨0, 7, 0x1800, 0x207⟩ := by decide +kernel

/-- V-F6: after `SRST` every register is invalid and the record is 0. -/
theorem test_srst :
    answer (send 0x0200 0 0 0 0 faulty) = some ⟨0, 0, 0, 0⟩ ∧
    (after (send 0x0200 0 0 0 0 faulty)).map (fun t => (t.regs, t.lanes, t.fault, t.faultCw)) =
      some (List.replicate 8 none, [], 0, 0) := by decide +kernel

/-- V-R10. -/
theorem test_rinit :
    answer (send 0x1020 4 10 6 0 State.reset) = some ⟨0, 0, 0, 0⟩ ∧
    (after (send 0x1020 4 10 6 0 State.reset)).map (·.reg 2) = some (some ⟨4, 0b1010, 0b0110⟩) := by decide +kernel

/-- V-R12, and the widest draw. -/
theorem test_rinitr :
    answer (send 0x1100 4 3 0 0x5A State.reset) = some ⟨0, 10, 0, 0⟩ ∧
    answer (send 0x1100 4 3 0 0x50 State.reset) = some ⟨0, 0, 0, 0⟩ ∧
    answer (send 0x1100 32 3 0 (2 ^ 256 - 1) State.reset) = some ⟨0, 0xFFFFFFFF, 0, 0⟩ := by decide +kernel

/-- V-R13: another destination, and the source as destination. -/
theorem test_rreset :
    (after (send 0x1232 12 0 0 0 busy)).map (fun t => (t.reg 3, t.reg 2)) =
      some (some ⟨4, 0b1010, 0b1100⟩, some regC) ∧
    (after (send 0x1222 15 0 0 0 busy)).map (·.reg 2) = some (some ⟨4, 0b1010, 0b1111⟩) := by decide +kernel

/-- V-R14, V-R15, V-R19: the reads of `(4, 0b1010, 0b0110)`; V-E5: unused operands are ignored. -/
theorem test_registerReads :
    answer (send 0x1302 0 0 0 0 busy) = some ⟨0, 15, 0, 0⟩ ∧ answer (send 0x1402 99 7 1 5 busy) = some ⟨0, 0, 0, 0⟩ ∧
    answer (send 0x1401 0 0 0 0 busy) = some ⟨0, 1, 0, 0⟩ ∧ answer (send 0x1802 0 0 0 0 busy) = some ⟨0, 6, 0, 0⟩ ∧
    answer (send 0x1902 0 0 0 0 busy) = some ⟨0, 4, 0b1010, 0⟩ := by decide +kernel

/-- V-R16: the source stays. -/
theorem test_rnext :
    answer (send 0x1532 0 0 0 0 busy) = some ⟨0, 0b1100, 0, 0⟩ ∧
    (after (send 0x1532 0 0 0 0 busy)).map (fun t => (t.reg 3, t.reg 2)) =
      some (some ⟨4, 0b1010, 0b1100⟩, some regC) := by decide +kernel

/-- V-R17. -/
theorem test_rgenseq :
    answer (send 0x1602 8 0 0 0 busy) = some ⟨0, 0x4E, 8, 0⟩ ∧
    (after (send 0x1602 8 0 0 0 { busy with seq := none })).map (fun t => (t.seq, t.reg 2)) =
      some (some seqC, some regC) ∧
    (after (send 0x1602 0 0 0 0 busy)).map (·.seq) = some (some []) := by decide +kernel

/-- V-R18, size 3. -/
theorem test_rkeyat :
    answer (send 0x1703 6 0 0 0 busy) = some ⟨0, 7, 1, 0⟩ ∧ answer (send 0x1703 7 0 0 0 busy) = some ⟨0, 0, 0, 0⟩ := by
  decide +kernel

/-- V-C12: the registers and buffers stay. -/
theorem test_cclr :
    (after (send 0x2000 0 0 0 0 busy)).map (fun t => (t.lanes, t.mix)) = some ([], none) ∧
    (after (send 0x2000 0 0 0 0 busy)).map (fun t => (t.regs, t.seq, t.ks)) =
      some (busy.regs, busy.seq, busy.ks) := by decide +kernel

/-- P2 steps 4 and 5: a copy, in registration order. -/
theorem test_cadd :
    answer (send 0x2102 0 0 0 0 busy) = some ⟨0, 3, 0, 0⟩ ∧
    (after (send 0x2102 0 0 0 0 busy)).map (·.lanes) = some [regA, regB, regC] := by decide +kernel

/-- V-C10: the widest table, and the function of no parameter. -/
theorem test_cmix :
    (after (send 0x2200 8 (2 ^ 255) 0 0 busy)).map (·.mix) = some (some ⟨8, 2 ^ 255⟩) ∧
    (after (send 0x2200 0 1 0 0 busy)).map (·.mix) = some (some ⟨0, 1⟩) := by decide +kernel

/-- V-C2, at steps 0, 3 and 4. -/
theorem test_couts :
    answer (send 0x2300 0 0 0 0 busy) = some ⟨0, 3, 2, 0⟩ ∧
    answer (send 0x2300 0 0 0 0 { busy with lanes := [⟨4, 3, 0b0100⟩, ⟨4, 9, 0b1100⟩] }) = some ⟨0, 2, 2, 0⟩ ∧
    answer (send 0x2300 0 0 0 0 { busy with lanes := [⟨4, 3, 0b1000⟩, ⟨4, 9, 0b0001⟩] }) = some ⟨0, 1, 2, 0⟩ ∧
    answer (send 0x2300 0 0 0 0 State.reset) = some ⟨0, 0, 0, 0⟩ := by decide +kernel

/-- V-C3. -/
theorem test_ctick :
    (after (send 0x2400 0 0 0 0 busy)).map (·.lanes) = some [⟨4, 3, 0b0001⟩, ⟨4, 9, 0b0011⟩] := by decide +kernel

/-- V-C4: the bit is of the lanes before the tick. -/
theorem test_cgenbit :
    answer (send 0x2500 0 0 0 0 busy) = some ⟨0, 1, 0, 0⟩ ∧
    (after (send 0x2500 0 0 0 0 busy)).map (·.lanes) = some [⟨4, 3, 0b0001⟩, ⟨4, 9, 0b0011⟩] := by decide +kernel

/-- V-C1 with AND, and with a table that tells lane 0 from lane 1. -/
theorem test_cgenseq :
    answer (send 0x2600 8 0 0 0 busy) = some ⟨0, 0x81, 8, 0⟩ ∧
    (after (send 0x2600 8 0 0 0 busy)).map (·.lanes) = some [⟨4, 3, 0b1011⟩, ⟨4, 9, 0b1001⟩] ∧
    answer (send 0x2600 8 0 0 0 { busy with mix := some ⟨2, 0b1010⟩ }) = some ⟨0, 0x89, 8, 0⟩ := by decide +kernel

/-- V-C11. -/
theorem test_clane :
    answer (send 0x2710 0 0 0 0 { busy with lanes := [⟨4, 3, 0b1011⟩, ⟨4, 9, 0b1001⟩] }) = some ⟨0, 0b1001, 4, 0b1001⟩ := by
  decide +kernel

/-- V-K1. -/
theorem test_ksld :
    (after (send 0x3000 8 0x0F 0 0 State.reset)).map (·.ks) =
      some (some [false, false, false, false, true, true, true, true]) ∧
    (after (send 0x3000 0 0 0 0 busy)).map (·.ks) = some (some []) := by decide +kernel

/-- V-K5, V-K1: the buffers' copies and reads. -/
theorem test_buffers :
    answer (send 0x3100 0 0 0 0 busy) = some ⟨0, 0, 8, 0⟩ ∧
    (after (send 0x3100 0 0 0 0 busy)).map (fun t => (t.ks, t.seq)) = some (some seqC, some seqC) ∧
    answer (send 0x3200 0 0 0 0 busy) = some ⟨0, 0x6A, 8, 0⟩ ∧ answer (send 0x3300 0 0 0 0 busy) = some ⟨0, 0x4E, 8, 0⟩ := by
  decide +kernel

/-- V-K3, V-K4. -/
theorem test_comparator :
    answer (send 0x3400 0 0 0 0 busy) = some ⟨0, 2, 8, 0⟩ ∧ answer (send 0x3500 0 0 0 0 busy) = some ⟨0, 0, 0, 0⟩ ∧
    answer (send 0x3500 0 0 0 0 { busy with ks := some seqC }) = some ⟨0, 1, 0, 0⟩ ∧
    answer (send 0x3500 0 0 0 0 { busy with seq := some [], ks := some [] }) = some ⟨0, 1, 0, 0⟩ := by decide +kernel

/-- V-S1: the smallest of three nearest keys; V-S3: an empty keystream. -/
theorem test_guess :
    answer (send 0x4003 0 0 0 0 { busy with ks := some [true, true, true, true] }) = some ⟨0, 3, 1, 0⟩ ∧
    answer (send 0x4003 0 0 0 0 { busy with ks := some [] }) = some ⟨0, 1, 0, 0⟩ := by decide +kernel

/-- V-S6, V-S7, V-S8. -/
theorem test_brute :
    answer (send 0x4100 0 0 0 0 (single ⟨2, 3, 3⟩ [true])) = some ⟨0, 2, 1, 0⟩ ∧
    answer (send 0x4100 0 0 0 0 (single ⟨2, 3, 3⟩ [true, false])) = some ⟨0, 3, 1, 0⟩ ∧
    answer (send 0x4100 0 0 0 0 (single regD [false, false, false])) = some ⟨0, 0, 0, 0⟩ ∧
    answer (send 0x4100 0 0 0 0 (single regD [])) = some ⟨0, 1, 1, 0⟩ := by decide +kernel

/-- V-S5, `BRUTE l1` on three lanes: the key of lane 1 is found with the lanes as they stand. -/
theorem test_brute_lane :
    answer (send 0x4111 0 0 0 0
      { busy with
        regs := [none, some ⟨4, 3, 1⟩]
        lanes := [⟨3, 3, 5⟩, ⟨4, 3, 6⟩, ⟨5, 5, 19⟩]
        mix := some ⟨3, 0xB8⟩
        ks := some (seqOf 16 0x8714) }) = some ⟨0, 6, 1, 0⟩ := by decide +kernel

/-- V-F1: the first fault is recorded, a later one is answered and not recorded. -/
theorem test_fault_record :
    (after (send 0x1800 0 0 0 0 State.reset)).map (fun t => (t.fault, t.faultCw)) = some (7, 0x1800) ∧
    answer (send 0x2500 0 0 0 0 { State.reset with fault := 7, faultCw := 0x1800 }) = some ⟨2, 0, 0, 0⟩ ∧
    (after (send 0x2500 0 0 0 0 { State.reset with fault := 7, faultCw := 0x1800 })).map (fun t => (t.fault, t.faultCw)) =
      some (7, 0x1800) := by decide +kernel

/-- V-F3: of two faults the first in the command's order. -/
theorem test_fault_priority :
    answer (send 0x1080 0 0 0 0 State.reset) = some ⟨6, 0, 0, 0⟩ ∧
    answer (send 0x1600 257 0 0 0 State.reset) = some ⟨6, 0, 0, 0⟩ ∧
    answer (send 0x2500 0 0 0 0 { State.reset with mix := some ⟨2, 8⟩ }) = some ⟨2, 0, 0, 0⟩ ∧
    answer (send 0x4100 0 0 0 0 { busy with ks := none, mix := some ⟨1, 2⟩ }) = some ⟨7, 0, 0, 0⟩ ∧
    answer (send 0x4150 0 0 0 0 { busy with lanes := [] }) = some ⟨2, 0, 0, 0⟩ ∧
    answer (send 0x2501 0 0 0 0 State.reset) = some ⟨5, 0, 0, 0⟩ := by decide +kernel

/-! ### Witnesses: for each obligation with hypotheses, values that meet them, one group per clause -/

/-- `DecodeOfEncodeIsTheCommand`, `EncodeOfDecodeIsTheWord`: the largest indices. -/
theorem witness_encoding :
    (Instr.brute 15 15).wellFormed = true ∧ (Instr.rinit 15).wellFormed = true ∧ Instr.nop.wellFormed = true ∧
    decode 0x41FF = .command (.brute 15 15) ∧ decode 0x18F0 = .illegal .unusedFieldNonzero := by decide +kernel

/-- `DecodeFollowsTheOpcodeMap`: a row with a word of it, a word of no row, and a word with its fields. -/
theorem witness_opcodeMap :
    (⟨"CLANE", 0x2700, 0xFF0F⟩ : OpcodeRow) ∈ opcodeTable ∧ (0x27F0 : CommandWord) &&& 0xFF0F = 0x2700 ∧
    decode 0x27F0 = .command (.clane 15) ∧ (∀ row ∈ opcodeTable, (0x27F1 : CommandWord) &&& row.mask ≠ row.pattern) ∧
    (Instr.clane 15).op = 0x27F0 / 256 ∧ (Instr.clane 15).fieldA = 15 := by decide +kernel

/-- `StepRunsTheDecodedCommand`, `EveryPresentedCommandIsAnswered`: a command with the largest operands and another
event behind it. -/
theorem witness_step :
    let p : Packet := ⟨0x1020, 2 ^ 256 - 1, 2 ^ 256 - 1, 2 ^ 256 - 1, 2 ^ 256 - 1⟩
    let s : State := { busy with host := [.command p, .reset] }
    s.host = .command p :: [.reset] ∧ p.fits s.params = true ∧ decode p.cw = .command (.rinit 2) ∧
    answer (step s) = some ⟨4, 0, 0, 0⟩ ∧ (after (step s)).map (·.host) = some [.reset] := by decide +kernel

/-- `IllegalWordRaisesIllegalCommand`: with the record free, and with it taken. -/
theorem witness_illegal :
    let p : Packet := ⟨0x2501, 0, 0, 0, 2 ^ 256 - 1⟩
    p.fits busy.params = true ∧ (∀ row ∈ opcodeTable, p.cw &&& row.mask ≠ row.pattern) ∧
    (after (step { busy with host := [.command p] })).map (fun t => (t.fault, t.faultCw)) = some (5, 0x2501) ∧
    (after (step { faulty with host := [.command p] })).map (fun t => (t.fault, t.faultCw)) = some (7, 0x1800) := by
  decide +kernel

/-- `IdleBlockHoldsItsState`. -/
theorem witness_idle : busy.host = [] := rfl

/-- `ResetInputAndSoftResetGiveTheResetState`: the two reset events, each with an event behind it. -/
theorem witness_reset :
    let p : Packet := ⟨0x2600, 8, 0, 0, 0⟩
    (after (step { faulty with host := [.reset, .command p] })).map (fun t => (t.lanes, t.fault, t.resp, t.host)) =
      some ([], 0, none, [.command p]) ∧
    (after (step { busy with host := [.commandCutByReset p, .reset] })).map (fun t => (t.lanes, t.seq, t.resp, t.host)) =
      some ([], none, none, [.reset]) := by decide +kernel

/-- `TooWideOperandIsRefused`: each operand at `2^XW`, the others in range. -/
theorem witness_tooWide :
    2 ^ busy.params.xw ≤ (Packet.mk 0 (2 ^ 256) 0 0 0).x ∧ 2 ^ busy.params.xw ≤ (Packet.mk 0 0 (2 ^ 256) 0 0).y ∧
    2 ^ busy.params.xw ≤ (Packet.mk 0 0 0 (2 ^ 256) 0).z ∧ 2 ^ busy.params.xw ≤ (Packet.mk 0 0 0 0 (2 ^ 256)).rnd := by
  decide +kernel

/-- `ResetStateMeetsTheInvariant`: the reference configuration, and the smallest legal one. -/
theorem witness_params : Params.reference.Valid ∧ (Params.mk 1 1 1 1 16).Valid ∧ ¬ (Params.mk 1 1 1 1 15).Valid := by
  decide +kernel

/-- `StepKeepsTheInvariant`: the invariant holds of a block in use, and it steps. -/
theorem witness_invariant :
    Inv busy ∧ (after (step (present 0x2600 256 0 0 0 busy))).isSome = true := by
  refine ⟨⟨by decide +kernel, by decide +kernel, ?_, ?_, by decide +kernel, ?_, ?_, ?_, by decide +kernel, by decide +kernel, by decide +kernel, ?_⟩, by decide +kernel⟩
  all_goals simp [busy, State.reset, State.resetOf, Params.reference, regA, regB, regC, regD, seqC, ksC, Reg.Ok, MixFn.Ok]

/-- `FaultChangesOnlyTheFaultRecord`, `FirstFaultIsTheOneRecorded`, `FaultsFollowTheMatrix`: a fault with the record
free, one with it taken, and a command without a fault. -/
theorem witness_fault :
    (answer (exec (.rkey 4) busy)).map (·.status) = some 7 ∧ busy.fault = 0 ∧
    (answer (exec (.rkey 8) faulty)).map (·.status) = some 6 ∧ faulty.fault ≠ 0 ∧
    (answer (exec (.rkey 2) busy)).map (·.status) = some 0 ∧ Cause.outOfRange ∈ mayRaise (.rkey 8) := by decide +kernel

/-- `CommandsWriteOnlyTheirState`: a command with a destination and another register, and for each buffer a command
that does not write it; each answers `OK`. -/
theorem witness_frame :
    destReg (.rnext 3 2) ≠ some 2 ∧ destReg .cgenseq = none ∧ writesLanes (.rinit 0) = false ∧
    writesMix .ctick = false ∧ writesSeq .ksseq = false ∧ writesKs .cgenseq = false ∧
    (answer (exec (.rnext 3 2) busy)).map (·.status) = some 0 ∧
    (answer (exec .cgenseq (State.ops busy 8 0 0 0))).map (·.status) = some 0 ∧
    (answer (exec .ctick busy)).map (·.status) = some 0 ∧ (answer (exec .ksseq busy)).map (·.status) = some 0 := by
  decide +kernel

/-- `PureCommandsAnswerTheSameTwice`: a pure command that answers, and one that raises a fault. -/
theorem witness_pure :
    isPure (.rkey 2) = true ∧ (answer (exec (.rkey 2) busy)).map (·.status) = some 0 ∧
    isPure (.guess 9) = true ∧ (answer (exec (.guess 9) busy)).map (·.status) = some 6 := by decide +kernel

/-- `FaultRecordSteersNoCommand`: a command other than `STAT`, and `STAT`, whose answer alone differs. -/
theorem witness_faultRecord :
    Instr.ctick ≠ .stat ∧ answer (exec .ctick busy) = answer (exec .ctick faulty) ∧ (after (exec .ctick busy)).isSome ∧
    answer (exec .stat busy) ≠ answer (exec .stat faulty) := by decide +kernel

/-- `UnreadOperandsHaveNoEffect`: V-E5, a command that reads no operand; and one that reads `X` alone. -/
theorem witness_unread :
    let p : Packet := ⟨0, 99, 7, 1, 5⟩
    p.cw = busy.port.cw ∧ readsX (.rout 2) = false ∧ readsY (.rout 2) = false ∧ readsZ (.rout 2) = false ∧
    readsRnd (.rout 2) = false ∧ (after (exec (.rout 2) busy)).isSome = true ∧
    readsX (.rkeyat 2) = true ∧ p.x = (State.ops busy 99 0 0 0).port.x := by decide +kernel

/-- `LanesKeepTheirSizeAndMask`: the three stepping commands and `CADD`, each answering `OK`. -/
theorem witness_lanes :
    (answer (exec .ctick busy)).map (·.status) = some 0 ∧ (answer (exec .cgenbit busy)).map (·.status) = some 0 ∧
    (answer (exec .cgenseq (State.ops busy 8 0 0 0))).map (·.status) = some 0 ∧
    (answer (exec (.cadd 3) busy)).map (·.status) = some 0 := by decide +kernel

/-- `ValidBitsFallOnlyByClearOrReset`: every valid bit set, and for each clause a command that answers `OK`. -/
theorem witness_validBits :
    (busy.reg 2).isSome = true ∧ busy.seq.isSome = true ∧ busy.ks.isSome = true ∧ busy.mix.isSome = true ∧
    (answer (exec (.rnext 7 2) busy)).map (·.status) = some 0 ∧ destReg (.rnext 7 2) = some 7 ∧ 7 < busy.regs.length ∧
    (answer (exec (.rgenseq 2) busy)).map (·.status) = some 0 ∧ (answer (exec .cgenseq busy)).map (·.status) = some 0 ∧
    (answer (exec .ksld busy)).map (·.status) = some 0 ∧ (answer (exec .ksseq busy)).map (·.status) = some 0 ∧
    (answer (exec .cmix busy)).map (·.status) = some 0 := by decide +kernel

/-- `RinitConstructsTheRegister`, V-R11: the first index that is no register; sizes 0 and 33, a mask of `2^X`; a key of
`2^X`; the widest and the narrowest register in the last index. -/
theorem witness_rinit :
    (busy.params.nr ≤ 8 ∧ answer (exec (.rinit 8) (State.ops busy 4 15 15 0)) = some ⟨6, 0, 0, 0⟩) ∧
    (7 < busy.params.nr ∧ answer (exec (.rinit 7) (State.ops busy 0 0 0 0)) = some ⟨4, 0, 0, 0⟩ ∧
      busy.params.wmax < 33 ∧ answer (exec (.rinit 7) (State.ops busy 33 0 0 0)) = some ⟨4, 0, 0, 0⟩ ∧
      answer (exec (.rinit 7) (State.ops busy 4 (2 ^ 4) (2 ^ 4) 0)) = some ⟨4, 0, 0, 0⟩) ∧
    answer (exec (.rinit 7) (State.ops busy 4 15 16 0)) = some ⟨1, 0, 0, 0⟩ ∧
    answer (exec (.rinit 7) (State.ops busy 32 (2 ^ 32 - 1) (2 ^ 32 - 1) 0)) = some ⟨0, 0, 0, 0⟩ ∧
    answer (exec (.rinit 7) (State.ops busy 1 1 1 0)) = some ⟨0, 0, 0, 0⟩ := by decide +kernel

/-- `RinitrConstructsFromTheDraw`: as for `RINIT`, with the largest draw. -/
theorem witness_rinitr :
    answer (exec (.rinitr 8) (State.ops busy 4 15 0 0)) = some ⟨6, 0, 0, 0⟩ ∧
    answer (exec (.rinitr 7) (State.ops busy 0 0 0 0)) = some ⟨4, 0, 0, 0⟩ ∧
    answer (exec (.rinitr 7) (State.ops busy 33 0 0 0)) = some ⟨4, 0, 0, 0⟩ ∧
    answer (exec (.rinitr 7) (State.ops busy 4 16 0 0)) = some ⟨4, 0, 0, 0⟩ ∧
    answer (exec (.rinitr 7) (State.ops busy 1 1 0 (2 ^ 256 - 1))) = some ⟨0, 1, 0, 0⟩ := by decide +kernel

/-- `RresetReplacesTheKey`, V-R13: either index beyond the registers, an invalid source, the keys 16 and 15. -/
theorem witness_rreset :
    answer (exec (.rreset 8 2) busy) = some ⟨6, 0, 0, 0⟩ ∧ answer (exec (.rreset 2 8) busy) = some ⟨6, 0, 0, 0⟩ ∧
    (busy.reg 7 = none ∧ answer (exec (.rreset 7 7) busy) = some ⟨7, 0, 0, 0⟩) ∧
    (busy.reg 2 = some regC ∧ 2 ^ regC.size - 1 < 16 ∧
      answer (exec (.rreset 7 2) (State.ops busy 16 0 0 0)) = some ⟨1, 0, 0, 0⟩) ∧
    (15 ≤ 2 ^ regC.size - 1 ∧ answer (exec (.rreset 7 2) (State.ops busy 15 0 0 0)) = some ⟨0, 0, 0, 0⟩) := by decide +kernel

/-- `RegisterReadsAnswer`: the first index that is no register, an invalid register, a valid one. -/
theorem witness_registerReads :
    (∀ i ∈ [Instr.rlargest 8, .rout 8, .rkey 8, .rcfg 8], answer (exec i busy) = some ⟨6, 0, 0, 0⟩) ∧
    (∀ i ∈ [Instr.rlargest 7, .rout 7, .rkey 7, .rcfg 7], answer (exec i busy) = some ⟨7, 0, 0, 0⟩) ∧
    3 < busy.params.nr ∧ busy.reg 3 = some regD ∧ answer (exec (.rlargest 3) busy) = some ⟨0, 7, 0, 0⟩ := by decide +kernel

/-- `RnextStepsTheRegister`: each clause. -/
theorem witness_rnext :
    answer (exec (.rnext 8 2) busy) = some ⟨6, 0, 0, 0⟩ ∧ answer (exec (.rnext 2 8) busy) = some ⟨6, 0, 0, 0⟩ ∧
    answer (exec (.rnext 2 7) busy) = some ⟨7, 0, 0, 0⟩ ∧ (busy.reg 2 = some regC ∧ 7 < busy.params.nr) := by decide +kernel

/-- `RgenseqFillsTheSequenceBuffer`, V-R17: the length 257 on an invalid register, 256 on one, and 256 on a valid one. -/
theorem witness_rgenseq :
    answer (exec (.rgenseq 8) busy) = some ⟨6, 0, 0, 0⟩ ∧
    answer (exec (.rgenseq 7) (State.ops busy 257 0 0 0)) = some ⟨6, 0, 0, 0⟩ ∧
    answer (exec (.rgenseq 7) (State.ops busy 256 0 0 0)) = some ⟨7, 0, 0, 0⟩ ∧
    (answer (exec (.rgenseq 2) (State.ops busy 256 0 0 0))).map (fun r => (r.status, r.r1)) = some (0, 256) := by
  decide +kernel

/-- `RkeyatEnumeratesTheKeys`, V-R18: the positions 6 and 7 of a register of size 3. -/
theorem witness_rkeyat :
    answer (exec (.rkeyat 8) busy) = some ⟨6, 0, 0, 0⟩ ∧ answer (exec (.rkeyat 7) busy) = some ⟨7, 0, 0, 0⟩ ∧
    busy.reg 3 = some regD ∧ 6 < 2 ^ regD.size - 1 ∧ 2 ^ regD.size - 1 ≤ 7 := by decide +kernel

/-- `CclrAndCmixConfigure`, V-C10: the arities 9 and 8, tables of `2^2^8` and one less, of `2^2^0`. -/
theorem witness_cmix :
    (busy.params.nlane < 9 ∧ answer (exec .cmix (State.ops busy 9 0 0 0)) = some ⟨6, 0, 0, 0⟩) ∧
    (8 ≤ busy.params.nlane ∧ answer (exec .cmix (State.ops busy 8 (2 ^ 2 ^ 8) 0 0)) = some ⟨4, 0, 0, 0⟩) ∧
    answer (exec .cmix (State.ops busy 0 2 0 0)) = some ⟨4, 0, 0, 0⟩ ∧
    answer (exec .cmix (State.ops busy 8 (2 ^ 2 ^ 8 - 1) 0 0)) = some ⟨0, 0, 0, 0⟩ := by decide +kernel

/-- `CaddAppendsACopy`, V-C10: the ninth lane, the eighth, an invalid register. -/
theorem witness_cadd :
    answer (exec (.cadd 8) busy) = some ⟨6, 0, 0, 0⟩ ∧
    (List.replicate 8 regA).length = busy.params.nlane ∧
    answer (exec (.cadd 0) { busy with lanes := List.replicate 8 regA }) = some ⟨6, 0, 0, 0⟩ ∧
    answer (exec (.cadd 7) busy) = some ⟨7, 0, 0, 0⟩ ∧
    answer (exec (.cadd 0) { busy with lanes := List.replicate 7 regA }) = some ⟨0, 8, 0, 0⟩ := by decide +kernel

/-- `CoutsAndClaneReadTheLanes`, V-C11: the last lane and the index after it. -/
theorem witness_clane :
    (busy.lanes.length ≤ 2 ∧ answer (exec (.clane 2) busy) = some ⟨6, 0, 0, 0⟩) ∧
    (busy.lanes[1]? = some regB ∧ answer (exec (.clane 1) busy) = some ⟨0, 13, 4, 9⟩) := by decide +kernel

/-- `CtickStepsEveryLane`, `CgenbitMixesThenTicks`: no lane, no function, another arity, the right one. -/
theorem witness_configuration :
    (∀ i ∈ [Instr.ctick, .cgenbit],
      answer (exec i { busy with lanes := [] }) = some ⟨2, 0, 0, 0⟩ ∧
      answer (exec i { busy with mix := none }) = some ⟨2, 0, 0, 0⟩) ∧
    (busy.lanes ≠ [] ∧ busy.mix = some ⟨2, 8⟩) ∧
    answer (exec .ctick { busy with mix := some ⟨3, 8⟩ }) = some ⟨0, 0, 0, 0⟩ ∧
    answer (exec .cgenbit { busy with mix := some ⟨3, 8⟩ }) = some ⟨3, 0, 0, 0⟩ ∧
    (MixFn.mk 2 8).arity = busy.lanes.length := by decide +kernel

/-- `CgenseqFillsTheSequenceBuffer`: the length 257, length 0 and 1 with nothing configured, another arity, 256. -/
theorem witness_cgenseq :
    answer (exec .cgenseq (State.ops busy 257 0 0 0)) = some ⟨6, 0, 0, 0⟩ ∧
    answer (exec .cgenseq State.reset) = some ⟨0, 0, 0, 0⟩ ∧
    answer (exec .cgenseq (State.ops State.reset 1 0 0 0)) = some ⟨2, 0, 0, 0⟩ ∧
    answer (exec .cgenseq (State.ops { busy with mix := none } 256 0 0 0)) = some ⟨2, 0, 0, 0⟩ ∧
    answer (exec .cgenseq (State.ops { busy with mix := some ⟨1, 2⟩ } 256 0 0 0)) = some ⟨3, 0, 0, 0⟩ ∧
    (answer (exec .cgenseq (State.ops busy 256 0 0 0))).map (fun r => (r.status, r.r1)) = some (0, 256) := by
  decide +kernel

/-- `KsldLoadsTheKeystream`, V-K1: the length 257, the value `2^3` of three bits, the largest of 256 bits. -/
theorem witness_ksld :
    answer (exec .ksld (State.ops busy 257 0 0 0)) = some ⟨6, 0, 0, 0⟩ ∧
    answer (exec .ksld (State.ops busy 3 8 0 0)) = some ⟨4, 0, 0, 0⟩ ∧
    answer (exec .ksld (State.ops busy 0 1 0 0)) = some ⟨4, 0, 0, 0⟩ ∧
    answer (exec .ksld (State.ops busy 256 (2 ^ 256 - 1) 0 0)) = some ⟨0, 0, 0, 0⟩ := by decide +kernel

/-- `KsseqCopiesTheSequence`, `BufferReadsAnswer`: each buffer invalid, and both valid. -/
theorem witness_buffers :
    answer (exec .ksseq State.reset) = some ⟨7, 0, 0, 0⟩ ∧ answer (exec .ksrd State.reset) = some ⟨7, 0, 0, 0⟩ ∧
    answer (exec .seqrd State.reset) = some ⟨7, 0, 0, 0⟩ ∧ busy.seq = some seqC ∧ busy.ks = some ksC := by decide +kernel

/-- `ComparatorAnswers`, V-K4: either buffer invalid, lengths 4 and 3, one length. -/
theorem witness_comparator :
    (∀ i ∈ [Instr.hamm, .equ],
      answer (exec i { busy with seq := none }) = some ⟨7, 0, 0, 0⟩ ∧
      answer (exec i { busy with ks := none }) = some ⟨7, 0, 0, 0⟩ ∧
      answer (exec i { busy with seq := some [true, false, false, false], ks := some [true, false, true] }) =
        some ⟨8, 0, 0, 0⟩) ∧
    (busy.seq = some seqC ∧ busy.ks = some ksC ∧ seqC.length = ksC.length) := by decide +kernel

/-- `GuessAnswersTheSmallestNearestKey`: each clause, and a register of size 1. -/
theorem witness_guess :
    answer (exec (.guess 8) busy) = some ⟨6, 0, 0, 0⟩ ∧ answer (exec (.guess 7) busy) = some ⟨7, 0, 0, 0⟩ ∧
    answer (exec (.guess 0) { busy with ks := none }) = some ⟨7, 0, 0, 0⟩ ∧
    (busy.reg 3 = some regD ∧ 1 ≤ regD.size ∧ busy.ks = some ksC) ∧
    answer (exec (.guess 0) { busy with regs := [some ⟨1, 1, 0⟩], ks := some [true, false] }) = some ⟨0, 1, 1, 0⟩ := by
  decide +kernel

/-- `BruteAnswersTheSearch`: each clause in the order of the tests, the last lane and the index after it. -/
theorem witness_brute :
    answer (exec (.brute 2 8) busy) = some ⟨6, 0, 0, 0⟩ ∧ answer (exec (.brute 2 7) busy) = some ⟨7, 0, 0, 0⟩ ∧
    answer (exec (.brute 2 0) { busy with ks := none }) = some ⟨7, 0, 0, 0⟩ ∧
    answer (exec (.brute 2 0) { busy with lanes := [] }) = some ⟨2, 0, 0, 0⟩ ∧
    answer (exec (.brute 2 0) { busy with mix := none }) = some ⟨2, 0, 0, 0⟩ ∧
    answer (exec (.brute 2 0) { busy with mix := some ⟨3, 8⟩ }) = some ⟨3, 0, 0, 0⟩ ∧
    answer (exec (.brute 2 0) busy) = some ⟨6, 0, 0, 0⟩ ∧
    (busy.reg 0 = some regA ∧ busy.mix = some ⟨2, 8⟩ ∧ 1 < busy.lanes.length) ∧
    answer (exec (.brute 1 1) { busy with ks := some [true, false] }) = some ⟨0, 8, 1, 0⟩ := by decide +kernel

/-- The hypotheses on a register's triple, at the widths 1 and 32: `NextKeyIsTheGaloisStep`,
`TruncationPointIsImmaterial`, `NextKeyIsLinearWithFixedPointZero`, `NextKeyIsBijectiveIffMaskBitZero`,
`KeysEnterACycle`, `AllKeysAscendFromOne`. -/
theorem witness_triple :
    (1 ≤ 1 ∧ 1 < 2 ^ 1 ∧ 0 < 2 ^ 1) ∧ (1 ≤ 32 ∧ 0x80000001 < 2 ^ 32 ∧ 0xFFFFFFFF < 2 ^ 32) ∧
    (Nat.testBit 0b1001 0 = true ∧ Nat.testBit 0b1010 0 = false) ∧
    (nextKey 4 0b1010 0b0000 = nextKey 4 0b1010 0b1101 ∨ nextKey 4 0b1010 0b1101 = 0b0000) ∧
    allKeys 1 = [1] ∧ allKeys 2 = [1, 2, 3] := by decide +kernel

/-- `RegSeqIsTheOutputBits`, `SeqValAndSeqOfAreInverse`: a position, and a value of so many bits. -/
theorem witness_sequences :
    (regSeq 4 0b1010 0b0110 8)[7]? = some false ∧ (7 : Nat) < 8 ∧ (0x4E : Nat) < 2 ^ 8 ∧ seqOf 8 0x4E = seqC ∧
    seqVal seqC = 0x4E ∧ (0 : Nat) < 2 ^ 0 ∧ seqOf 0 0 = [] := by decide +kernel

/-- `HammingIsAMetric`, V-K2: three sequences of one length, and the empty ones. -/
theorem witness_hamming :
    seqC.length = ksC.length ∧ hamming seqC ksC = 2 ∧ (seqOf 8 0).length = seqC.length ∧ hamming [] [] = 0 := by decide +kernel

/-- `MixingFunctionsAreTruthTables`: lists of two arguments and of none, and a table in its range, V-C1's AND. -/
theorem witness_tables :
    [true, false].length = 2 ∧ packBits [true, false] = 1 ∧ (0b1000 : Nat) < 2 ^ 2 ^ 2 ∧
    (∀ x ∈ [[false, false], [true, false], [false, true], [true, true]], (MixFn.mk 2 8).apply x = x.all id) ∧
    (MixFn.mk 0 1).apply [] = true := by decide +kernel

/-- `CombSeqMixesBeforeEachTick`: the last position of V-C1's eight bits. -/
theorem witness_combSeq : (7 : Nat) < 8 ∧ (combSeq [regA, regB] ⟨2, 8⟩ 8).1[7]? = some true := by decide +kernel

/-- `CgenseqIsRepeatedCgenbit`, V-C5: three bits, none, and 256. -/
theorem witness_genBits :
    busy.lanes ≠ [] ∧ busy.mix = some ⟨2, 8⟩ ∧ (MixFn.mk 2 8).arity = busy.lanes.length ∧
    (State.ops busy 256 0 0 0).port.x ≤ busy.params.lmax ∧
    (genBits 3 busy).map (·.1) = some [true, false, false] ∧ (genBits 0 busy).map (·.1) = some [] := by decide +kernel

/-- `BruteForceFindsTheLeastKey`, V-S6, V-S7: a key found and none found. -/
theorem witness_bruteForce :
    bruteForceKey 2 3 [true] (substituteLane [⟨2, 3, 3⟩] ⟨1, 2⟩ 0) = some 2 ∧
    bruteForceKey 3 3 [false, false, false] (substituteLane [regD] ⟨1, 2⟩ 0) = none := by decide +kernel

/-- `BruteRecoversAReproducingKey`, V-S6: the keystreams of key 3, of one bit (key 2 makes it too) and of two. -/
theorem witness_recover :
    (∀ n ∈ [1, 2],
      let s := single ⟨2, 3, 3⟩ (combSeq [⟨2, 3, 3⟩] ⟨1, 2⟩ n).1
      0 < s.params.nr ∧ s.reg 0 = some ⟨2, 3, 3⟩ ∧ s.mix = some ⟨1, 2⟩ ∧ 1 = s.lanes.length ∧
      s.ks = some (combSeq (s.lanes.set 0 ⟨2, 3, 3⟩) ⟨1, 2⟩ n).1) ∧
    (1 ≤ 3 ∧ 3 ≤ 2 ^ 2 - 1) ∧
    (∀ k ∈ [1, 2], (combSeq [⟨2, 3, k⟩] ⟨1, 2⟩ 2).1 ≠ (combSeq [⟨2, 3, 3⟩] ⟨1, 2⟩ 2).1) := by decide +kernel

/-- `SearchesIgnoreTheReplacedKey`: another key in the register and another triple in the lane; no lane at all. -/
theorem witness_ignored :
    busy.reg 1 = some regB ∧ (Reg.mk 4 9 0).size = regB.size ∧ (Reg.mk 4 9 0).mask = regB.mask ∧
    (after (exec (.guess 1) { busy with lanes := [] })).isSome = true ∧
    (after (exec (.brute 1 1) busy)).isSome = true := by decide +kernel

end Sys2Proof.Tests
end

section
/-! PROOFS. Bit sequences and their integers (00_scope.md R8, 70_reset_and_hazards.md R324). -/

namespace Sys2Proof.Machine

theorem bitVal_eq_toNat (b : Bool) : bitVal b = b.toNat := by cases b <;> rfl

@[simp] theorem seqOf_zero (v : Nat) : seqOf 0 v = [] := rfl

/-- The first of `len + 1` bits is bit `len` of the value; the others are the sequence of the lower bits. -/
theorem seqOf_succ (len v : Nat) : seqOf (len + 1) v = v.testBit len :: seqOf len v := by
  simp [seqOf, List.range_succ_eq_map, Nat.sub_sub, Nat.add_comm 1]

/-- `SeqOf` reads the low `len` bits of the value, and `SeqVal` gives them back. -/
theorem seqVal_seqOf (len v : Nat) : seqVal (seqOf len v) = v % 2 ^ len := by
  induction len with
  | zero => simp [Nat.mod_one]
  | succ len ih =>
    rw [seqOf_succ, seqVal_cons, seqOf_length, ih, bitVal_eq_toNat, Nat.toNat_testBit, Nat.mod_pow_succ]
    ring

theorem seqVal_seqOf_of_lt {len v : Nat} (h : v < 2 ^ len) : seqVal (seqOf len v) = v := by
  rw [seqVal_seqOf, Nat.mod_eq_of_lt h]

/-- The quotient by the first bit's weight is that bit. -/
theorem seqVal_cons_div (b : Bool) (bs : BitSeq) : seqVal (b :: bs) / 2 ^ bs.length = bitVal b := by
  rw [seqVal_cons, Nat.add_comm, Nat.add_mul_div_right _ _ (Nat.two_pow_pos _), Nat.div_eq_of_lt (seqVal_lt bs),
    Nat.zero_add]

/-- Among the sequences of one length the value decides the sequence. -/
theorem seqVal_inj {p q : BitSeq} (hlen : p.length = q.length) (hval : seqVal p = seqVal q) : p = q := by
  induction p generalizing q with
  | nil => exact (List.length_eq_zero_iff.mp hlen.symm).symm
  | cons b p ih =>
    cases q with
    | nil => simp at hlen
    | cons c q =>
      have htail : p.length = q.length := Nat.succ.inj hlen
      have hbit : b = c := bitVal_inj (by rw [← seqVal_cons_div b p, ← seqVal_cons_div c q, hval, htail])
      subst hbit
      rw [seqVal_cons, seqVal_cons, htail] at hval
      rw [ih htail (Nat.add_left_cancel hval)]

theorem seqOf_seqVal (bs : BitSeq) : seqOf bs.length (seqVal bs) = bs :=
  seqVal_inj (seqOf_length _ _) (seqVal_seqOf_of_lt (seqVal_lt bs))

/-- The length is part of the value of a sequence (70_reset_and_hazards.md R324). -/
theorem seqOf_inj {n v m w : Nat} (hv : v < 2 ^ n) (hw : w < 2 ^ m) (h : seqOf n v = seqOf m w) : n = m ∧ v = w := by
  constructor
  · simpa using congrArg List.length h
  · simpa [seqVal_seqOf_of_lt hv, seqVal_seqOf_of_lt hw] using congrArg seqVal h

/-- Settles O50: `SeqOf` is a right inverse of `SeqVal` on the values of `len` bits, and `SeqVal` is injective on each
length, so that the two are inverse to each other. -/
theorem seqValAndSeqOfAreInverse : Obligations.SeqValAndSeqOfAreInverse := by
  refine ⟨fun bs => ⟨seqVal_lt bs, seqOf_seqVal bs, fun b => ?_⟩,
    fun len v hv => ⟨seqVal_seqOf_of_lt hv, seqOf_length len v⟩, fun n v m w => seqOf_inj⟩
  rw [seqVal_cons]
  cases b <;> simp

end Sys2Proof.Machine
end

section
/-! PROOFS. Mixing functions and their truth tables (10_state.md R32, 41_combinator.md R161). -/

namespace Sys2Proof.Machine

theorem packBits_cons (b : Bool) (x : List Bool) : packBits (b :: x) = Nat.bit b (packBits x) := by
  cases b <;> simp [packBits, Nat.bit, Nat.add_comm]

/-- Argument `i` of a list stands at bit `i` of its packing, and no other bit is set. -/
theorem testBit_packBits (x : List Bool) (i : Nat) : (packBits x).testBit i = x.getD i false := by
  induction x generalizing i with
  | nil => simp [packBits]
  | cons b x ih =>
    rw [packBits_cons]
    cases i with
    | zero => simp
    | succ i => simp [Nat.testBit_bit_succ, ih]

/-- The argument list of `n` bits whose packing is `v`. -/
def unpackBits (n v : Nat) : List Bool := (List.range n).map v.testBit

@[simp] theorem unpackBits_length (n v : Nat) : (unpackBits n v).length = n := by simp [unpackBits]

theorem unpackBits_packBits (x : List Bool) : unpackBits x.length (packBits x) = x := by
  apply List.ext_getElem (unpackBits_length _ _)
  intro i _ hi
  simp [unpackBits, testBit_packBits, hi]

theorem packBits_unpackBits {n v : Nat} (h : v < 2 ^ n) : packBits (unpackBits n v) = v := by
  apply Nat.eq_of_testBit_eq
  intro i
  rw [testBit_packBits]
  by_cases hi : i < n
  · simp [unpackBits, hi]
  · have hv : v.testBit i = false :=
      Nat.testBit_lt_two_pow (h.trans_le (Nat.pow_le_pow_right Nat.two_pos (not_lt.mp hi)))
    simp [unpackBits, hi, hv]

/-- The truth table of a function on lists of `n` bits: entry `v` is its value at the list that `v` packs. -/
def tableOf (n : Nat) (g : List Bool → Bool) : Nat :=
  packBits ((List.range (2 ^ n)).map fun v => g (unpackBits n v))

theorem tableOf_lt (n : Nat) (g : List Bool → Bool) : tableOf n g < 2 ^ 2 ^ n := by
  simpa [tableOf] using packBits_lt ((List.range (2 ^ n)).map fun v => g (unpackBits n v))

/-- The mixing function of `tableOf n g` is `g` on the lists of `n` bits (41_combinator.md R161). -/
theorem apply_tableOf (g : List Bool → Bool) (x : List Bool) :
    (MixFn.mk x.length (tableOf x.length g)).apply x = g x := by
  simp [MixFn.apply, tableOf, testBit_packBits, packBits_lt, unpackBits_packBits]

/-- Tables of `2^n` bits that agree on all lists of `n` bits are one: every entry is the value at some list. -/
theorem table_unique {n tt tt' : Nat} (htt : tt < 2 ^ 2 ^ n) (htt' : tt' < 2 ^ 2 ^ n)
    (h : ∀ x : List Bool, x.length = n → (MixFn.mk n tt).apply x = (MixFn.mk n tt').apply x) : tt = tt' := by
  apply Nat.eq_of_testBit_eq
  intro v
  by_cases hv : v < 2 ^ n
  · simpa [MixFn.apply, packBits_unpackBits hv] using h (unpackBits n v) (unpackBits_length n v)
  · have hle : 2 ^ 2 ^ n ≤ 2 ^ v := Nat.pow_le_pow_right Nat.two_pos (not_lt.mp hv)
    rw [Nat.testBit_lt_two_pow (htt.trans_le hle), Nat.testBit_lt_two_pow (htt'.trans_le hle)]

/-- Settles O52: the table that lists the function's values agrees with it, and a table is decided by its mixing
function. -/
theorem mixingFunctionsAreTruthTables : Obligations.MixingFunctionsAreTruthTables := by
  refine ⟨fun x => ⟨packBits_lt x, testBit_packBits x⟩, fun n g => ?_⟩
  have happly : ∀ x : List Bool, x.length = n → (MixFn.mk n (tableOf n g)).apply x = g x := by
    rintro x rfl
    exact apply_tableOf g x
  refine ⟨tableOf n g, tableOf_lt n g, happly, fun tt' htt' h => ?_⟩
  exact table_unique htt' (tableOf_lt n g) fun x hx => (h x hx).trans (happly x hx).symm

end Sys2Proof.Machine
end

section
/-! PROOFS. The reset state, the fault record and the frame of every command (10_state.md R23, R24, R40, R41, R50). -/

namespace Sys2Proof.Machine

/-! ### After reset -/

theorem State.resetOf_reg (p : Params) (i : Nat) : (State.resetOf p).reg i = none := by
  rw [State.reg, State.resetOf, List.getElem?_replicate]
  split <;> rfl

/-- Settles O11: every field by its value in the reset state, and no event of the host's for the step to take. -/
theorem resetStateWaitsForItsFirstCommand : Obligations.ResetStateWaitsForItsFirstCommand := fun p =>
  ⟨State.resetOf_reg p, List.length_replicate, rfl, rfl, rfl, rfl, rfl, rfl, rfl, rfl⟩

theorem resetOf_inv {p : Params} (hp : p.Valid) : Inv (State.resetOf p) where
  params := hp
  regCount := List.length_replicate
  regs _ hr := nomatch List.eq_of_mem_replicate hr
  lanes _ hr := nomatch hr
  laneCount := Nat.zero_le _
  mix _ hf := nomatch hf
  seq _ hq := nomatch hq
  ks _ hk := nomatch hk
  fault := Nat.zero_le _
  faultCw _ := rfl
  port := by simp [State.resetOf, idlePacket, Packet.fits]
  resp _ hr := nomatch hr

/-- Settles O12: the reset state meets the invariant for all legal parameters, and the reference ones are legal. -/
theorem resetStateMeetsTheInvariant : Obligations.ResetStateMeetsTheInvariant :=
  ⟨fun _ => resetOf_inv, resetOf_inv (by decide)⟩

/-! ### The fault record and the frame -/

/-- Settles O15: a fault is recorded where none is, and a command that answers leaves the record. -/
theorem firstFaultIsTheOneRecorded : Obligations.FirstFaultIsTheOneRecorded := by
  intro i s t hi hexec
  obtain ⟨c, -, hc⟩ | ⟨u, r0, r1, r2, hu, hans⟩ := exec_cases i s
  · obtain rfl : s.faulted c = t := Host.Outcome.next.inj (hc.symm.trans hexec)
    refine ⟨fun hf => ⟨if_neg hf, if_neg hf⟩, ?_⟩
    rintro r ⟨⟩ hf
    exact ⟨if_pos hf, (if_pos hf).trans (if_neg c.code_ne_zero).symm⟩
  · obtain rfl : u.answered r0 r1 r2 = t := Host.Outcome.next.inj (hu.symm.trans hexec)
    refine ⟨fun _ => ⟨hans.fault hi, hans.faultCw hi⟩, ?_⟩
    rintro r ⟨⟩ hf
    exact ⟨(hans.fault hi).trans hf, hans.faultCw hi⟩

/-- Settles O17: a fault writes the record and the response alone, and a command that answers leaves what the inversion
of `exec` says. -/
theorem commandsWriteOnlyTheirState : Obligations.CommandsWriteOnlyTheirState := by
  intro i s t hexec
  obtain ⟨c, -, hc⟩ | ⟨u, r0, r1, r2, hu, hans⟩ := exec_cases i s
  · obtain rfl : s.faulted c = t := Host.Outcome.next.inj (hc.symm.trans hexec)
    exact ⟨rfl, rfl, rfl, fun _ _ _ => rfl, fun _ _ => rfl, fun _ => rfl, fun _ => rfl, fun _ => rfl, fun _ => rfl⟩
  · obtain rfl : u.answered r0 r1 r2 = t := Host.Outcome.next.inj (hu.symm.trans hexec)
    exact ⟨hans.params, hans.port, hans.host, hans.reg, hans.regs, hans.lanes, hans.mix, hans.seq, hans.ks⟩

end Sys2Proof.Machine
end

section
/-! PROOFS. The inversion of `exec` by what a command writes: for each command, the faults it raises, or the write it
makes and the values it answers, with their bounds in a state that meets the invariant. -/

namespace Sys2Proof

/-! ### What the ports carry in a legal configuration (00_scope.md R6) -/

theorem lt_two_pow_of_le {v m n : Nat} (hv : v < 2 ^ m) (hmn : m ≤ n) : v < 2 ^ n :=
  hv.trans_le (Nat.pow_le_pow_right Nat.two_pos hmn)

namespace Params.Valid

variable {ps : Params} (hp : ps.Valid)
include hp

theorem wmax_lt : ps.wmax < ps.xw := by
  obtain ⟨-, -, -, -, -, -, hw, -⟩ := hp
  exact hw

theorem lmax_le : ps.lmax ≤ ps.xw := by
  obtain ⟨-, -, -, -, -, -, -, hl, -⟩ := hp
  exact hl

theorem nlane_le : ps.nlane ≤ 16 := by
  obtain ⟨-, -, -, -, hn, -⟩ := hp
  exact hn

theorem nlane_lt : ps.nlane < ps.xw := by
  obtain ⟨-, -, -, -, -, -, -, -, hn, -⟩ := hp
  exact Nat.lt_two_pow_self.trans_le hn

theorem sixteen_le : 16 ≤ ps.xw := by
  obtain ⟨-, -, -, -, -, -, -, -, -, hx⟩ := hp
  exact hx

/-- A bit fits every port. -/
theorem bit_lt {v : Nat} (hv : v ≤ 1) : v < 2 ^ ps.xw :=
  lt_two_pow_of_le (m := 1) (Nat.lt_succ_of_le hv) (by have := hp.sixteen_le; omega)

end Params.Valid
end Sys2Proof

namespace Sys2Proof.Machine

/-! ### Registers in their domain (10_state.md R22) -/

namespace Reg.Ok

variable {ps : Params} {r : Reg} (hr : r.Ok ps)
include hr

theorem next : r.next.Ok ps := by
  obtain ⟨hpos, hmax, hmask, -⟩ := hr
  exact ⟨hpos, hmax, hmask, nextKey_lt r.size r.mask r.key hmask⟩

/-- A value of the register's width fits every port. -/
theorem lt_port (hp : ps.Valid) {v : Nat} (hv : v < 2 ^ r.size) : v < 2 ^ ps.xw := by
  obtain ⟨-, hmax, -⟩ := hr
  exact lt_two_pow_of_le hv (hmax.trans hp.wmax_lt.le)

theorem size_lt_port (hp : ps.Valid) : r.size < 2 ^ ps.xw := hr.lt_port hp Nat.lt_two_pow_self

theorem mask_lt_port (hp : ps.Valid) : r.mask < 2 ^ ps.xw := by
  have ⟨_, _, hmask, _⟩ := hr
  exact hr.lt_port hp hmask

theorem key_lt_port (hp : ps.Valid) : r.key < 2 ^ ps.xw := by
  have ⟨_, _, _, hkey⟩ := hr
  exact hr.lt_port hp hkey

end Reg.Ok

theorem largestKey_lt (n : Nat) : largestKey n < 2 ^ n := Nat.sub_one_lt (Nat.two_pow_pos n).ne'

theorem lt_of_le_largestKey {n v : Nat} (h : v ≤ largestKey n) : v < 2 ^ n := h.trans_lt (largestKey_lt n)

theorem tickAll_ok {ps : Params} {lanes : List Reg} (h : ∀ r ∈ lanes, r.Ok ps) :
    ∀ r ∈ tickAll lanes, r.Ok ps := by
  intro r hr
  obtain ⟨r', hr', rfl⟩ := List.mem_map.mp hr
  exact (h r' hr').next

theorem combSeq_lanes_ok {ps : Params} (f : MixFn) (n : Nat) {lanes : List Reg} (h : ∀ r ∈ lanes, r.Ok ps) :
    ∀ r ∈ (combSeq lanes f n).2, r.Ok ps := by
  induction n generalizing lanes with
  | zero => exact h
  | succ n ih => exact ih (tickAll_ok h)

/-! ### What the searches answer (43_search.md R231, R235) -/

theorem keyDistance_le (s m : Nat) (ks : BitSeq) (k : Nat) : keyDistance s m ks k ≤ ks.length :=
  (hamming_le _ _).trans (regSeq_length s m k ks.length).le

/-- The bounds of the best key and its distance, which every pass of `GuessKey`'s loop keeps. -/
def GuessBound (s : Nat) (ks : BitSeq) (best : Nat × Nat) : Prop := best.1 < 2 ^ s ∧ best.2 ≤ ks.length

theorem guessStep_bound {s m : Nat} {ks : BitSeq} {best : Nat × Nat} {k : Nat} (hb : GuessBound s ks best)
    (hk : k < 2 ^ s) : GuessBound s ks (guessStep s m ks best k) := by
  unfold guessStep
  split
  · exact ⟨hk, keyDistance_le s m ks k⟩
  · exact hb

theorem guessKey_bound {s : Nat} (hs : 1 ≤ s) (m : Nat) (ks : BitSeq) : GuessBound s ks (guessKey s m ks) := by
  have hfirst : GuessBound s ks (1, keyDistance s m ks 1) :=
    ⟨Nat.one_lt_two_pow (Nat.one_le_iff_ne_zero.mp hs), keyDistance_le s m ks 1⟩
  refine List.foldlRecOn _ _ hfirst fun best hb k hk => guessStep_bound hb ?_
  obtain ⟨-, hk⟩ := (mem_allKeys s k).mp (List.mem_of_mem_tail hk)
  exact lt_of_le_largestKey hk

theorem bruteForceKey_lt {s m : Nat} {ks : BitSeq} {builder : Reg → List Reg × MixFn} {k : Nat}
    (h : bruteForceKey s m ks builder = some k) : k < 2 ^ s := by
  obtain ⟨-, hk⟩ := (mem_allKeys s k).mp (List.mem_of_find?_eq_some h)
  exact lt_of_le_largestKey hk

/-! ### What a command can do -/

/-- Response values that the ports can carry (30_encoding.md R94). -/
structure Carried (ps : Params) (r0 r1 r2 : Nat) : Prop where
  r0_lt : r0 < 2 ^ ps.xw
  r1_lt : r1 < 2 ^ ps.xw
  r2_lt : r2 < 2 ^ ps.xw

theorem Carried.two {ps : Params} {r0 r1 : Nat} (h0 : r0 < 2 ^ ps.xw) (h1 : r1 < 2 ^ ps.xw) : Carried ps r0 r1 0 :=
  ⟨h0, h1, Nat.two_pow_pos _⟩

theorem Carried.one {ps : Params} {r0 : Nat} (h0 : r0 < 2 ^ ps.xw) : Carried ps r0 0 0 := .two h0 (Nat.two_pow_pos _)

theorem Carried.zero {ps : Params} : Carried ps 0 0 0 := .one (Nat.two_pow_pos _)

/-- What a command that answers `OK` writes: from `s` it makes the state before the response. One constructor per kind
of write, with the bound of the value written in a state that meets the invariant. -/
inductive Writes (s : State) : Instr → State → Prop
  | nothing {i : Instr} (hi : isPure i = true) : Writes s i s
  | reset : Writes s .srst s.cleared
  | register {i : Instr} {a : Nat} {r : Reg} (hi : destReg i = some a) (hr : Inv s → r.Ok s.params) :
      Writes s i (s.setReg a r)
  | noCombinator : Writes s .cclr s.clearCombinator
  | lanes {i : Instr} {l : List Reg} (hi : (∃ b, i = .cadd b) ∨ i = .ctick ∨ i = .cgenbit)
      (hlen : Inv s → l.length ≤ s.params.nlane) (hl : Inv s → ∀ r ∈ l, r.Ok s.params) :
      Writes s i (s.setLanes l)
  | mix {f : MixFn} (hf : f.Ok s.params) : Writes s .cmix (s.setMix f)
  | seq {i : Instr} {q : BitSeq} (hi : i = .cgenseq ∨ ∃ b, i = .rgenseq b) (hq : q.length ≤ s.params.lmax) :
      Writes s i (s.setSeq q)
  | lanesAndSeq {l : List Reg} {q : BitSeq} (hlen : Inv s → l.length ≤ s.params.nlane)
      (hl : Inv s → ∀ r ∈ l, r.Ok s.params) (hq : q.length ≤ s.params.lmax) :
      Writes s .cgenseq ((s.setLanes l).setSeq q)
  | ks {i : Instr} {k : BitSeq} (hi : i = .ksld ∨ i = .ksseq) (hk : Inv s → k.length ≤ s.params.lmax) :
      Writes s i (s.setKs k)

theorem Writes.params {s u : State} {i : Instr} (hw : Writes s i u) : u.params = s.params := by cases hw <;> rfl

/-- What a command can do: raise a fault, or write and answer values that the ports carry. -/
inductive Performs (s : State) (i : Instr) : Result → Prop
  | raises (c : Cause) : Performs s i (raise c s)
  | answers {u : State} {r0 r1 r2 : Nat} (hw : Writes s i u) (hr : Inv s → Carried s.params r0 r1 r2) :
      Performs s i (respond r0 r1 r2 u)

/-! ### The values a state that meets the invariant holds -/

section
variable {s : State} (h : Inv s)
include h

theorem Inv.reg_ok {b : Nat} {r : Reg} (hr : s.reg b = some r) : r.Ok s.params := h.regs r (s.mem_of_reg b r hr)

/-- A buffer's bits and its length fit every port. -/
theorem Inv.carried_seq {q : BitSeq} (hq : q.length ≤ s.params.lmax) : Carried s.params (seqVal q) q.length 0 :=
  have hle := hq.trans h.params.lmax_le
  .two (lt_two_pow_of_le (seqVal_lt q) hle) (lt_two_pow_of_le Nat.lt_two_pow_self hle)

theorem Inv.carried_bit (b : Bool) : Carried s.params (bitVal b) 0 0 := .one (h.params.bit_lt (bitVal_le b))

theorem Inv.lanes_length_lt : s.lanes.length < 2 ^ s.params.xw :=
  lt_two_pow_of_le Nat.lt_two_pow_self (h.laneCount.trans h.params.nlane_lt.le)

/-- `STAT`'s flags are three bits and a count of at most 16 (44_system.md R261). -/
theorem Inv.statFlags_lt : s.statFlags < 2 ^ 16 := by
  have hmix := bitVal_le s.mixSet
  have hks := bitVal_le s.ksValid
  have hseq := bitVal_le s.seqValid
  have hcount := h.laneCount.trans h.params.nlane_le
  simp only [State.statFlags, State.count_eq]
  omega

theorem Inv.carried_stat : Carried s.params s.fault.toNat s.faultCw.toNat s.statFlags where
  r0_lt := lt_two_pow_of_le (s.fault.isLt.trans (by decide)) h.params.sixteen_le
  r1_lt := lt_two_pow_of_le s.faultCw.isLt h.params.sixteen_le
  r2_lt := lt_two_pow_of_le h.statFlags_lt h.params.sixteen_le

theorem Inv.carried_outBits : Carried s.params (packBits (outBits s.lanes)) s.lanes.length 0 := by
  have hpack := packBits_lt (outBits s.lanes)
  rw [outBits_length] at hpack
  exact .two (lt_two_pow_of_le hpack (h.laneCount.trans h.params.nlane_lt.le)) h.lanes_length_lt

end

/-! ### The System and Register families -/

theorem execNop_performs (s : State) : Performs s .nop (execNop s) := .answers (.nothing rfl) fun _ => .zero

theorem execStat_performs (s : State) : Performs s .stat (execStat s) :=
  .answers (.nothing rfl) fun h => h.carried_stat

theorem execSrst_performs (s : State) : Performs s .srst (execSrst s) := .answers .reset fun _ => .zero

theorem execRinit_performs (a : Nat) (s : State) : Performs s (.rinit a) (execRinit a s) := by
  unfold execRinit
  split_ifs with ha hsize hmask hkey
  · exact .raises .outOfRange
  · exact .raises .invalidConfig
  · exact .raises .invalidConfig
  · exact .raises .invalidKey
  · obtain ⟨hpos, hmax⟩ := not_or.mp hsize
    refine .answers (.register rfl fun _ => ?_) fun _ => .zero
    exact ⟨Nat.pos_of_ne_zero hpos, not_lt.mp hmax, not_le.mp hmask, lt_of_le_largestKey (not_lt.mp hkey)⟩

theorem execRinitr_performs (a : Nat) (s : State) : Performs s (.rinitr a) (execRinitr a s) := by
  unfold execRinitr
  split_ifs with ha hsize hmask
  · exact .raises .outOfRange
  · exact .raises .invalidConfig
  · exact .raises .invalidConfig
  · obtain ⟨hpos, hmax⟩ := not_or.mp hsize
    have hkey : trunc s.x s.rnd < 2 ^ s.x := Nat.mod_lt _ (Nat.two_pow_pos _)
    have hok : Reg.Ok s.params ⟨s.x, s.y, trunc s.x s.rnd⟩ :=
      ⟨Nat.pos_of_ne_zero hpos, not_lt.mp hmax, not_le.mp hmask, hkey⟩
    exact .answers (.register rfl fun _ => hok) fun h => .one (hok.key_lt_port h.params)

theorem execRreset_performs (a b : Nat) (s : State) : Performs s (.rreset a b) (execRreset a b s) := by
  unfold execRreset
  split
  · exact .raises .outOfRange
  split
  · exact .raises .notLoaded
  next r hr =>
  split
  · exact .raises .invalidKey
  next hkey =>
  refine .answers (.register rfl fun h => ?_) fun _ => .zero
  obtain ⟨hpos, hmax, hmask, -⟩ := h.reg_ok hr
  exact ⟨hpos, hmax, hmask, lt_of_le_largestKey (not_lt.mp hkey)⟩

theorem execRlargest_performs (b : Nat) (s : State) : Performs s (.rlargest b) (execRlargest b s) := by
  unfold execRlargest
  split
  · exact .raises .outOfRange
  split
  · exact .raises .notLoaded
  next r hr => exact .answers (.nothing rfl) fun h => .one ((h.reg_ok hr).lt_port h.params (largestKey_lt r.size))

theorem execRout_performs (b : Nat) (s : State) : Performs s (.rout b) (execRout b s) := by
  unfold execRout
  split
  · exact .raises .outOfRange
  split
  · exact .raises .notLoaded
  · exact .answers (.nothing rfl) fun h => h.carried_bit _

theorem execRnext_performs (a b : Nat) (s : State) : Performs s (.rnext a b) (execRnext a b s) := by
  unfold execRnext
  split
  · exact .raises .outOfRange
  split
  · exact .raises .notLoaded
  next r hr =>
  exact .answers (.register rfl fun h => (h.reg_ok hr).next) fun h => .one ((h.reg_ok hr).next.key_lt_port h.params)

theorem execRgenseq_performs (b : Nat) (s : State) : Performs s (.rgenseq b) (execRgenseq b s) := by
  unfold execRgenseq
  split
  · exact .raises .outOfRange
  next hrange =>
  split
  · exact .raises .notLoaded
  next r hr =>
  have hlen : (regSeq r.size r.mask r.key s.x).length ≤ s.params.lmax :=
    (regSeq_length r.size r.mask r.key s.x).trans_le (not_lt.mp (not_or.mp hrange).2)
  exact .answers (.seq (.inr ⟨b, rfl⟩) hlen) fun h => h.carried_seq hlen

theorem execRkeyat_performs (b : Nat) (s : State) : Performs s (.rkeyat b) (execRkeyat b s) := by
  unfold execRkeyat
  split
  · exact .raises .outOfRange
  split
  · exact .raises .notLoaded
  next r hr =>
  split
  next hx =>
    exact .answers (.nothing rfl) fun h =>
      .two ((h.reg_ok hr).lt_port h.params (lt_of_le_largestKey hx)) (h.params.bit_lt le_rfl)
  · exact .answers (.nothing rfl) fun _ => .zero

theorem execRkey_performs (b : Nat) (s : State) : Performs s (.rkey b) (execRkey b s) := by
  unfold execRkey
  split
  · exact .raises .outOfRange
  split
  · exact .raises .notLoaded
  next r hr => exact .answers (.nothing rfl) fun h => .one ((h.reg_ok hr).key_lt_port h.params)

theorem execRcfg_performs (b : Nat) (s : State) : Performs s (.rcfg b) (execRcfg b s) := by
  unfold execRcfg
  split
  · exact .raises .outOfRange
  split
  · exact .raises .notLoaded
  next r hr =>
  exact .answers (.nothing rfl) fun h =>
    .two ((h.reg_ok hr).size_lt_port h.params) ((h.reg_ok hr).mask_lt_port h.params)

/-! ### The Combinator family -/

theorem execCclr_performs (s : State) : Performs s .cclr (execCclr s) := .answers .noCombinator fun _ => .zero

theorem execCadd_performs (b : Nat) (s : State) : Performs s (.cadd b) (execCadd b s) := by
  unfold execCadd
  split
  · exact .raises .outOfRange
  next hrange =>
  split
  · exact .raises .notLoaded
  next r hr =>
  have hroom (h : Inv s) : s.lanes.length + 1 ≤ s.params.nlane :=
    Nat.lt_of_le_of_ne h.laneCount (not_or.mp hrange).2
  refine .answers (.lanes (.inl ⟨b, rfl⟩) (fun h => ?_) fun h r' hr' => ?_) fun h => .one ?_
  · simpa using hroom h
  · obtain hold | hnew := List.mem_append.mp hr'
    · exact h.lanes r' hold
    · exact List.mem_singleton.mp hnew ▸ h.reg_ok hr
  · exact lt_two_pow_of_le Nat.lt_two_pow_self ((hroom h).trans h.params.nlane_lt.le)

theorem execCmix_performs (s : State) : Performs s .cmix (execCmix s) := by
  unfold execCmix
  split_ifs with harity htable
  · exact .raises .outOfRange
  · exact .raises .invalidConfig
  · exact .answers (.mix ⟨not_lt.mp harity, not_le.mp htable⟩) fun _ => .zero

theorem execCouts_performs (s : State) : Performs s .couts (execCouts s) :=
  .answers (.nothing rfl) fun h => h.carried_outBits

/-- The tick of every lane is a write that keeps the lanes in their domain. -/
theorem writes_tickAll {s : State} {i : Instr} (hi : i = .ctick ∨ i = .cgenbit) :
    Writes s i (s.setLanes (tickAll s.lanes)) :=
  .lanes (.inr hi) (fun h => (tickAll_length s.lanes).trans_le h.laneCount) fun h => tickAll_ok h.lanes

theorem execCtick_performs (s : State) : Performs s .ctick (execCtick s) := by
  unfold execCtick
  split
  next c _ => exact .raises c
  · exact .answers (writes_tickAll (.inl rfl)) fun _ => .zero

theorem execCgenbit_performs (s : State) : Performs s .cgenbit (execCgenbit s) := by
  unfold execCgenbit
  split
  next c _ => exact .raises c
  · exact .answers (writes_tickAll (.inr rfl)) fun h => h.carried_bit _

theorem execCgenseq_performs (s : State) : Performs s .cgenseq (execCgenseq s) := by
  unfold execCgenseq
  split_ifs with hlong hzero
  · exact .raises .outOfRange
  · exact .answers (.seq (.inl rfl) (Nat.zero_le _)) fun _ => .zero
  split
  next c _ => exact .raises c
  next f _ =>
  have hlen : (combSeq s.lanes f s.x).1.length ≤ s.params.lmax :=
    (combSeq_length s.lanes f s.x).trans_le (not_lt.mp hlong)
  have hlanes (h : Inv s) : (combSeq s.lanes f s.x).2.length ≤ s.params.nlane :=
    (combSeq_lanes_length s.lanes f s.x).trans_le h.laneCount
  exact .answers (.lanesAndSeq hlanes (fun h => combSeq_lanes_ok f s.x h.lanes) hlen) fun h => h.carried_seq hlen

theorem execClane_performs (a : Nat) (s : State) : Performs s (.clane a) (execClane a s) := by
  unfold execClane
  split
  · exact .raises .outOfRange
  next r hr =>
  have hok (h : Inv s) : r.Ok s.params := h.lanes r (List.mem_of_getElem? hr)
  exact .answers (.nothing rfl) fun h =>
    ⟨(hok h).key_lt_port h.params, (hok h).size_lt_port h.params, (hok h).mask_lt_port h.params⟩

/-! ### The Comparator family -/

theorem execKsld_performs (s : State) : Performs s .ksld (execKsld s) := by
  unfold execKsld
  split_ifs with hlong hwide
  · exact .raises .outOfRange
  · exact .raises .invalidConfig
  · exact .answers (.ks (.inl rfl) fun _ => (seqOf_length s.x s.y).trans_le (not_lt.mp hlong)) fun _ => .zero

theorem execKsseq_performs (s : State) : Performs s .ksseq (execKsseq s) := by
  unfold execKsseq
  split
  · exact .raises .notLoaded
  next q hq =>
  exact .answers (.ks (.inr rfl) fun h => h.seq q hq) fun h =>
    .two (Nat.two_pow_pos _) (h.carried_seq (h.seq q hq)).r1_lt

theorem execKsrd_performs (s : State) : Performs s .ksrd (execKsrd s) := by
  unfold execKsrd
  split
  · exact .raises .notLoaded
  next k hk => exact .answers (.nothing rfl) fun h => h.carried_seq (h.ks k hk)

theorem execSeqrd_performs (s : State) : Performs s .seqrd (execSeqrd s) := by
  unfold execSeqrd
  split
  · exact .raises .notLoaded
  next q hq => exact .answers (.nothing rfl) fun h => h.carried_seq (h.seq q hq)

theorem execHamm_performs (s : State) : Performs s .hamm (execHamm s) := by
  obtain ⟨q, k, hq, -, -, hc⟩ | ⟨-, hc⟩ | ⟨q, k, -, -, -, hc⟩ := s.comparable_cases <;> rw [execHamm, hc]
  · refine .answers (.nothing rfl) fun h => ?_
    have hlen := (h.carried_seq (h.seq q hq)).r1_lt
    exact .two ((hamming_le q k).trans_lt hlen) hlen
  · exact .raises .notLoaded
  · exact .raises .lengthMismatch

theorem execEqu_performs (s : State) : Performs s .equ (execEqu s) := by
  unfold execEqu
  split
  next c _ => exact .raises c
  · exact .answers (.nothing rfl) fun h => h.carried_bit _

/-! ### The Search family -/

theorem execGuess_performs (b : Nat) (s : State) : Performs s (.guess b) (execGuess b s) := by
  unfold execGuess
  split
  · exact .raises .outOfRange
  split
  next r k hr hk =>
    refine .answers (.nothing rfl) fun h => ?_
    obtain ⟨hpos, -⟩ := h.reg_ok hr
    obtain ⟨hkey, hdist⟩ := guessKey_bound hpos r.mask k
    exact .two ((h.reg_ok hr).lt_port h.params hkey) (hdist.trans_lt (h.carried_seq (h.ks k hk)).r1_lt)
  · exact .raises .notLoaded

theorem execBrute_performs (a b : Nat) (s : State) : Performs s (.brute a b) (execBrute a b s) := by
  unfold execBrute
  split
  · exact .raises .outOfRange
  split
  case h_2 => exact .raises .notLoaded
  next r k hr hk =>
  split
  next c _ => exact .raises c
  split
  · exact .raises .outOfRange
  split
  next key hkey =>
    exact .answers (.nothing rfl) fun h =>
      .two ((h.reg_ok hr).lt_port h.params (bruteForceKey_lt hkey)) (h.params.bit_lt le_rfl)
  · exact .answers (.nothing rfl) fun _ => .zero

/-! ### Every command -/

theorem exec_performs (i : Instr) (s : State) : Performs s i (exec i s) := by
  cases i with
  | nop => exact execNop_performs s
  | stat => exact execStat_performs s
  | srst => exact execSrst_performs s
  | rinit a => exact execRinit_performs a s
  | rinitr a => exact execRinitr_performs a s
  | rreset a b => exact execRreset_performs a b s
  | rlargest b => exact execRlargest_performs b s
  | rout b => exact execRout_performs b s
  | rnext a b => exact execRnext_performs a b s
  | rgenseq b => exact execRgenseq_performs b s
  | rkeyat b => exact execRkeyat_performs b s
  | rkey b => exact execRkey_performs b s
  | rcfg b => exact execRcfg_performs b s
  | cclr => exact execCclr_performs s
  | cadd b => exact execCadd_performs b s
  | cmix => exact execCmix_performs s
  | couts => exact execCouts_performs s
  | ctick => exact execCtick_performs s
  | cgenbit => exact execCgenbit_performs s
  | cgenseq => exact execCgenseq_performs s
  | clane a => exact execClane_performs a s
  | ksld => exact execKsld_performs s
  | ksseq => exact execKsseq_performs s
  | ksrd => exact execKsrd_performs s
  | seqrd => exact execSeqrd_performs s
  | hamm => exact execHamm_performs s
  | equ => exact execEqu_performs s
  | guess b => exact execGuess_performs b s
  | brute a b => exact execBrute_performs a b s

/-- The state after a command: a fault entered, or a write and the response. -/
theorem exec_next_cases {i : Instr} {s t : State} (hexec : exec i s = .next t) :
    (∃ c, t = s.faulted c) ∨
      ∃ (u : State) (r0 r1 r2 : Nat), t = u.answered r0 r1 r2 ∧ Writes s i u ∧
        (Inv s → Carried s.params r0 r1 r2) := by
  have hperf := exec_performs i s
  rw [hexec] at hperf
  generalize hres : Host.Outcome.next t = res at hperf
  cases hperf with
  | raises c => exact .inl ⟨c, Host.Outcome.next.inj hres⟩
  | answers hw hr => exact .inr ⟨_, _, _, _, Host.Outcome.next.inj hres, hw, hr⟩

end Sys2Proof.Machine
end

section
/-! PROOFS. Every step keeps the invariant (10_state.md R22, R31, R32, R36, R37, R40, R41). -/

namespace Sys2Proof.Machine

/-! ### The invariant under each operation on the state -/

section
variable {s : State} (h : Inv s)
include h

theorem Inv.setReg {r : Reg} (a : Nat) (hr : r.Ok s.params) : Inv (s.setReg a r) :=
  { h with
    regCount := (List.length_set ..).trans h.regCount
    regs := fun r' hr' => by
      obtain hold | hnew := List.mem_or_eq_of_mem_set hr'
      · exact h.regs r' hold
      · exact Option.some.inj hnew ▸ hr }

theorem Inv.setLanes {l : List Reg} (hlen : l.length ≤ s.params.nlane) (hl : ∀ r ∈ l, r.Ok s.params) :
    Inv (s.setLanes l) :=
  { h with lanes := hl, laneCount := hlen }

theorem Inv.setMix {f : MixFn} (hf : f.Ok s.params) : Inv (s.setMix f) :=
  { h with mix := fun _ hf' => Option.some.inj hf' ▸ hf }

theorem Inv.clearCombinator : Inv s.clearCombinator :=
  { h with
    lanes := fun _ hr => nomatch hr
    laneCount := Nat.zero_le _
    mix := fun _ hf => nomatch hf }

theorem Inv.setSeq {q : BitSeq} (hq : q.length ≤ s.params.lmax) : Inv (s.setSeq q) :=
  { h with seq := fun _ hq' => Option.some.inj hq' ▸ hq }

theorem Inv.setKs {k : BitSeq} (hk : k.length ≤ s.params.lmax) : Inv (s.setKs k) :=
  { h with ks := fun _ hk' => Option.some.inj hk' ▸ hk }

theorem Inv.answered {r0 r1 r2 : Nat} (hr : Carried s.params r0 r1 r2) : Inv (s.answered r0 r1 r2) :=
  { h with
    resp := fun r hresp => by
      obtain rfl := Option.some.inj hresp
      exact ⟨Nat.zero_le _, hr.r0_lt, hr.r1_lt, hr.r2_lt, fun hne => absurd rfl hne⟩ }

/-- A fault entered is a code of the spec, recorded with its command word, and answers zeros (60_exceptions.md R280). -/
theorem Inv.faulted (c : Cause) : Inv (s.faulted c) :=
  { h with
    fault := by
      rw [State.faulted_fault]
      split
      · exact c.code_le
      · exact h.fault
    faultCw := by
      intro hzero
      rw [State.faulted_fault] at hzero
      split at hzero
      · exact absurd hzero c.code_ne_zero
      · contradiction
    resp := fun r hresp => by
      obtain rfl := Option.some.inj hresp
      exact ⟨c.code_le, Nat.two_pow_pos _, Nat.two_pow_pos _, Nat.two_pow_pos _, fun _ => ⟨rfl, rfl, rfl⟩⟩ }

/-- The cleared state is the reset state beside the ports, which a reset leaves. -/
theorem Inv.cleared : Inv s.cleared :=
  { resetOf_inv h.params with
    port := h.port
    resp := h.resp }

theorem Inv.resetInput : Inv s.resetInput :=
  { h.cleared with resp := fun _ hr => nomatch hr }

theorem Inv.present {p : Packet} (hp : p.fits s.params = true) : Inv (s.present p) := { h with port := hp }

theorem Inv.hostLeft (rest : List HostEvent) : Inv (s.hostLeft rest) := { h with }

/-! ### The invariant under a command and a step -/

theorem Inv.writes {i : Instr} {u : State} (hw : Writes s i u) : Inv u := by
  cases hw with
  | nothing => exact h
  | reset => exact h.cleared
  | register _ hr => exact h.setReg _ (hr h)
  | noCombinator => exact h.clearCombinator
  | lanes _ hlen hl => exact h.setLanes (hlen h) (hl h)
  | mix hf => exact h.setMix hf
  | seq _ hq => exact h.setSeq hq
  | lanesAndSeq hlen hl hq => exact (h.setLanes (hlen h) (hl h)).setSeq hq
  | ks _ hk => exact h.setKs (hk h)

theorem Inv.exec {i : Instr} {t : State} (hexec : exec i s = .next t) : Inv t := by
  obtain ⟨c, rfl⟩ | ⟨u, r0, r1, r2, rfl, hw, hr⟩ := exec_next_cases hexec
  · exact h.faulted c
  · exact (h.writes hw).answered (hw.params ▸ hr h)

theorem Inv.runPort {t : State} (hrun : runPort s = .next t) : Inv t := by
  unfold Machine.runPort at hrun
  split at hrun
  · exact h.exec hrun
  · exact Host.Outcome.next.inj hrun ▸ h.faulted .illegalCommand

theorem Inv.serve {e : HostEvent} {t : State} (hserve : serve e s = .next t) : Inv t := by
  cases e with
  | command p =>
    simp only [Machine.serve, accept] at hserve
    split at hserve
    next hfits => exact (h.present hfits).runPort hserve
    · cases hserve
  | reset => exact Host.Outcome.next.inj hserve ▸ h.resetInput
  | commandCutByReset p => exact Host.Outcome.next.inj hserve ▸ h.resetInput

end

/-- Settles O13: the block idles, or serves one event from a state that meets the invariant. -/
theorem stepKeepsTheInvariant : Obligations.StepKeepsTheInvariant := by
  intro s t h hstep
  unfold step advance at hstep
  split at hstep
  · exact Host.Outcome.next.inj hstep ▸ h
  next e rest _ => exact (h.hostLeft rest).serve hstep

/-! ### The valid bits (10_state.md R25, R42) -/

/-- A write of a register leaves every valid register valid. -/
theorem State.reg_setReg_isSome (s : State) (a : Nat) (r : Reg) {j : Nat} (hj : (s.reg j).isSome = true) :
    ((s.setReg a r).reg j).isSome = true := by
  by_cases haj : a = j
  · subst haj
    have hlt : a < s.regs.length := by
      by_contra hge
      simp [State.reg, List.getElem?_eq_none (not_lt.mp hge)] at hj
    rw [s.reg_setReg_self a r hlt, Option.isSome_some]
  · rwa [s.reg_setReg_other a j r haj]

theorem destReg_of_isPure {i : Instr} (hi : isPure i = true) : destReg i = none := by
  cases i <;> simp_all [isPure, destReg]

namespace Writes

variable {s u : State} {i : Instr} (hw : Writes s i u)
include hw

theorem reg_isSome (hi : i ≠ .srst) {j : Nat} (hj : (s.reg j).isSome = true) : (u.reg j).isSome = true := by
  cases hw with
  | reset => exact absurd rfl hi
  | register => exact s.reg_setReg_isSome _ _ hj
  | nothing | noCombinator | lanes | mix | seq | lanesAndSeq | ks => exact hj

theorem seq_isSome (hi : i ≠ .srst) (hs : s.seq.isSome = true) : u.seq.isSome = true := by
  cases hw with
  | reset => exact absurd rfl hi
  | seq | lanesAndSeq => rfl
  | nothing | register | noCombinator | lanes | mix | ks => exact hs

theorem ks_isSome (hi : i ≠ .srst) (hs : s.ks.isSome = true) : u.ks.isSome = true := by
  cases hw with
  | reset => exact absurd rfl hi
  | ks => rfl
  | nothing | register | noCombinator | lanes | mix | seq | lanesAndSeq => exact hs

theorem mix_isSome (hi : i ≠ .srst) (hclear : i ≠ .cclr) (hs : s.mix.isSome = true) : u.mix.isSome = true := by
  cases hw with
  | reset => exact absurd rfl hi
  | noCombinator => exact absurd rfl hclear
  | mix => rfl
  | nothing | register | lanes | seq | lanesAndSeq | ks => exact hs

/-! A command that names an object makes no other write than its own. -/

theorem destReg_isSome {a : Nat} (hd : destReg i = some a) (ha : a < s.regs.length) : (u.reg a).isSome = true := by
  cases hw with
  | register hi =>
    obtain rfl := Option.some.inj (hi.symm.trans hd)
    rw [s.reg_setReg_self _ _ ha, Option.isSome_some]
  | nothing hi => simp [destReg_of_isPure hi] at hd
  | lanes hi => obtain ⟨b, rfl⟩ | rfl | rfl := hi <;> cases hd
  | seq hi => obtain rfl | ⟨b, rfl⟩ := hi <;> cases hd
  | ks hi => obtain rfl | rfl := hi <;> cases hd
  | reset | noCombinator | mix | lanesAndSeq => cases hd

theorem seq_isSome_of_generate (hi : i = .cgenseq ∨ ∃ b, i = .rgenseq b) : u.seq.isSome = true := by
  cases hw with
  | seq | lanesAndSeq => rfl
  | nothing hp => obtain rfl | ⟨b, rfl⟩ := hi <;> cases hp
  | register hd => obtain rfl | ⟨b, rfl⟩ := hi <;> cases hd
  | lanes hl => obtain rfl | ⟨b, rfl⟩ := hi <;> simp at hl
  | ks hk => obtain rfl | ⟨b, rfl⟩ := hi <;> simp at hk
  | reset | noCombinator | mix => simp at hi

theorem ks_isSome_of_load (hi : i = .ksld ∨ i = .ksseq) : u.ks.isSome = true := by
  cases hw with
  | ks => rfl
  | nothing hp => obtain rfl | rfl := hi <;> cases hp
  | register hd => obtain rfl | rfl := hi <;> cases hd
  | lanes hl => obtain rfl | rfl := hi <;> simp at hl
  | seq hq => obtain rfl | rfl := hi <;> simp at hq
  | reset | noCombinator | mix | lanesAndSeq => simp at hi

theorem mix_isSome_of_cmix (hi : i = .cmix) : u.mix.isSome = true := by
  subst hi
  cases hw with
  | mix => rfl
  | nothing hp => cases hp
  | register hd => cases hd
  | lanes hl => simp at hl
  | seq hq => simp at hq
  | ks hk => simp at hk

end Writes

/-- Settles O22: a fault leaves the valid bits and is no success; every write but a clear or a reset sets valid bits
alone, the one of the object its command names among them. -/
theorem validBitsFallOnlyByClearOrReset : Obligations.ValidBitsFallOnlyByClearOrReset := by
  intro i s t hi hexec
  obtain ⟨c, rfl⟩ | ⟨u, r0, r1, r2, rfl, hw, -⟩ := exec_next_cases hexec
  · refine ⟨fun _ hj => hj, fun hs => hs, fun hs => hs, fun _ hs => hs, ?_⟩
    rintro r ⟨⟩ hstatus
    exact absurd hstatus c.code_ne_zero
  · exact ⟨fun _ => hw.reg_isSome hi, hw.seq_isSome hi, hw.ks_isSome hi, hw.mix_isSome hi, fun _ _ _ =>
      ⟨fun _ => hw.destReg_isSome, hw.seq_isSome_of_generate, hw.ks_isSome_of_load, hw.mix_isSome_of_cmix⟩⟩

end Sys2Proof.Machine
end

section
/-! PROOFS. No command but `STAT` looks at the fault record or the last response (20_memory.md R65, 60_exceptions.md
R281): what it raises or answers is the same whatever they hold. -/

namespace Sys2Proof.Machine

/-! ### The state with another fault record and last response -/

/-- The state with another fault record and another last response. -/
def State.withRecord (s : State) (f : StatusCode) (w : CommandWord) (r : Option Response) : State :=
  { s with fault := f, faultCw := w, resp := r }

section
variable (s : State) (f : StatusCode) (w : CommandWord) (r : Option Response)

@[simp] theorem State.withRecord_lanes : (s.withRecord f w r).lanes = s.lanes := rfl
@[simp] theorem State.withRecord_seq : (s.withRecord f w r).seq = s.seq := rfl
@[simp] theorem State.withRecord_ks : (s.withRecord f w r).ks = s.ks := rfl
@[simp] theorem State.withRecord_reg (i : Nat) : (s.withRecord f w r).reg i = s.reg i := rfl
@[simp] theorem State.withRecord_configured : (s.withRecord f w r).configured = s.configured := rfl
@[simp] theorem State.withRecord_applicable : (s.withRecord f w r).applicable = s.applicable := rfl
@[simp] theorem State.withRecord_comparable : (s.withRecord f w r).comparable = s.comparable := rfl

end

/-- A fault entered changes the fault record and the response alone (60_exceptions.md R280). -/
theorem State.faulted_eq_withRecord (s : State) (c : Cause) :
    s.faulted c = s.withRecord (s.faulted c).fault (s.faulted c).faultCw (s.faulted c).resp := rfl

/-- A response changes the response alone. -/
theorem State.answered_eq_withRecord (s : State) (r0 r1 r2 : Nat) :
    s.answered r0 r1 r2 = s.withRecord s.fault s.faultCw (some ⟨0, r0, r1, r2⟩) := rfl

/-! ### The outcome of a command does not depend on them -/

/-- A command's outcomes from `s` and from `s'` agree: the same fault, or the same answer from states that differ in the
fault record and the last response alone. -/
inductive SameOutcome (s s' : State) : Result → Result → Prop
  | raises (c : Cause) : SameOutcome s s' (raise c s) (raise c s')
  | answers {u : State} {r0 r1 r2 : Nat} {f : StatusCode} {w : CommandWord} {r : Option Response} :
      SameOutcome s s' (respond r0 r1 r2 u) (respond r0 r1 r2 (u.withRecord f w r))

/-- Outcomes that agree carry the same response. -/
theorem SameOutcome.exists_resp_eq {s s' t : State} {res : Result} (h : SameOutcome s s' (.next t) res) :
    ∃ u, res = .next u ∧ u.resp = t.resp := by
  generalize hres : Host.Outcome.next t = res₀ at h
  cases h with
  | raises c =>
    obtain rfl := Host.Outcome.next.inj hres
    exact ⟨s'.faulted c, rfl, rfl⟩
  | answers =>
    obtain rfl := Host.Outcome.next.inj hres
    exact ⟨_, rfl, rfl⟩

/-- Outcomes that agree in both branches of a test agree. -/
theorem SameOutcome.ite {s s' : State} {p : Prop} [Decidable p] {a a' b b' : Result} (ha : SameOutcome s s' a a')
    (hb : SameOutcome s s' b b') : SameOutcome s s' (if p then a else b) (if p then a' else b') := by
  split
  · exact ha
  · exact hb

/-- Every test of a command but `STAT` is of a part of the state that the fault record and the last response are no part
of. The commands are grouped by the tests they make. -/
theorem exec_withRecord (s : State) (f : StatusCode) (w : CommandWord) (r : Option Response) {i : Instr}
    (hi : i ≠ .stat) : SameOutcome s (s.withRecord f w r) (exec i s) (exec i (s.withRecord f w r)) := by
  cases i with
  | stat => exact absurd rfl hi
  | nop | srst | cclr | couts => exact .answers
  | rinit a => exact .ite (.raises _) (.ite (.raises _) (.ite (.raises _) (.ite (.raises _) .answers)))
  | rinitr a => exact .ite (.raises _) (.ite (.raises _) (.ite (.raises _) .answers))
  | cmix | ksld => exact .ite (.raises _) (.ite (.raises _) .answers)
  | rlargest b | rout b | rnext a b | rgenseq b | rkey b | rcfg b | cadd b =>
    refine .ite (.raises .outOfRange) ?_
    rw [State.withRecord_reg]
    cases s.reg b with
    | none => exact .raises .notLoaded
    | some x => exact .answers
  | rreset a b =>
    refine .ite (.raises .outOfRange) ?_
    rw [State.withRecord_reg]
    cases s.reg b with
    | none => exact .raises .notLoaded
    | some x => exact .ite (.raises .invalidKey) .answers
  | rkeyat b =>
    refine .ite (.raises .outOfRange) ?_
    rw [State.withRecord_reg]
    cases s.reg b with
    | none => exact .raises .notLoaded
    | some x => exact .ite .answers .answers
  | ctick =>
    simp only [exec, execCtick, State.withRecord_configured]
    cases s.configured with
    | error c => exact .raises c
    | ok g => exact .answers
  | cgenbit =>
    simp only [exec, execCgenbit, State.withRecord_applicable]
    cases s.applicable with
    | error c => exact .raises c
    | ok g => exact .answers
  | cgenseq =>
    refine .ite (.raises .outOfRange) (.ite .answers ?_)
    rw [State.withRecord_applicable]
    cases s.applicable with
    | error c => exact .raises c
    | ok g => exact .answers
  | clane a =>
    simp only [exec, execClane, State.withRecord_lanes]
    cases s.lanes[a]? with
    | none => exact .raises .outOfRange
    | some x => exact .answers
  | ksseq | seqrd =>
    simp only [exec, execKsseq, execSeqrd, State.withRecord_seq]
    cases s.seq with
    | none => exact .raises .notLoaded
    | some q => exact .answers
  | ksrd =>
    simp only [exec, execKsrd, State.withRecord_ks]
    cases s.ks with
    | none => exact .raises .notLoaded
    | some k => exact .answers
  | hamm | equ =>
    simp only [exec, execHamm, execEqu, State.withRecord_comparable]
    cases s.comparable with
    | error c => exact .raises c
    | ok qk => exact .answers
  | guess b =>
    refine .ite (.raises .outOfRange) ?_
    rw [State.withRecord_reg, State.withRecord_ks]
    cases s.reg b with
    | none => exact .raises .notLoaded
    | some x =>
      cases s.ks with
      | none => exact .raises .notLoaded
      | some k => exact .answers
  | brute a b =>
    refine .ite (.raises .outOfRange) ?_
    rw [State.withRecord_reg, State.withRecord_ks, State.withRecord_applicable]
    cases s.reg b with
    | none => exact .raises .notLoaded
    | some x =>
      cases s.ks with
      | none => exact .raises .notLoaded
      | some k =>
        cases s.applicable with
        | error c => exact .raises c
        | ok g =>
          refine .ite (.raises .outOfRange) ?_
          rw [State.withRecord_lanes]
          cases bruteForceKey x.size x.mask k (substituteLane s.lanes g a) with
          | none => exact .answers
          | some key => exact .answers

/-! ### A pure command, issued twice in a row (20_memory.md R65) -/

/-- A pure command enters a fault or answers; it writes nothing else. -/
theorem exec_next_cases_of_isPure {i : Instr} {s t : State} (hi : isPure i = true) (hexec : exec i s = .next t) :
    (∃ c, t = s.faulted c) ∨ ∃ r0 r1 r2, t = s.answered r0 r1 r2 := by
  obtain ⟨c, -, hc⟩ | ⟨u, r0, r1, r2, hu, hans⟩ := exec_cases i s
  · exact .inl ⟨c, Host.Outcome.next.inj (hexec.symm.trans hc)⟩
  · obtain rfl := hans.pure hi
    exact .inr ⟨r0, r1, r2, Host.Outcome.next.inj (hexec.symm.trans hu)⟩

/-- The response is the same from the state the first issue leaves: `STAT` answers, which leaves the record it reads, and
no other command reads what the first issue changes. -/
theorem exec_again_of_isPure {i : Instr} {s t : State} (hi : isPure i = true) (hexec : exec i s = .next t) :
    ∃ u, exec i t = .next u ∧ u.resp = t.resp := by
  by_cases hstat : i = .stat
  · subst hstat
    obtain rfl := Host.Outcome.next.inj hexec
    exact ⟨_, rfl, rfl⟩
  have hagree (f w r) := (hexec ▸ exec_withRecord s f w r hstat).exists_resp_eq
  obtain ⟨c, rfl⟩ | ⟨r0, r1, r2, rfl⟩ := exec_next_cases_of_isPure hi hexec
  · rw [s.faulted_eq_withRecord c]
    exact hagree _ _ _
  · rw [s.answered_eq_withRecord r0 r1 r2]
    exact hagree _ _ _

/-- Settles O18: a pure command enters a fault or answers, and the second issue meets the same tests as the first. -/
theorem pureCommandsAnswerTheSameTwice : Obligations.PureCommandsAnswerTheSameTwice := by
  intro i s t hi hexec
  have hagain := exec_again_of_isPure hi hexec
  obtain ⟨c, rfl⟩ | ⟨r0, r1, r2, rfl⟩ := exec_next_cases_of_isPure hi hexec
  · refine ⟨rfl, ?_, hagain⟩
    rintro r ⟨⟩ hstatus
    exact absurd hstatus c.code_ne_zero
  · refine ⟨rfl, ?_, hagain⟩
    rintro r ⟨⟩ -
    rfl

end Sys2Proof.Machine
end

section
/-! PROOFS. Decoding and encoding (30_encoding.md R91, R97, R98): a word reads as a command exactly when its three
fields are the command's, and the opcode map lists the commands' rows. -/

namespace Sys2Proof

/-! ### The fields of a word (30_encoding.md R91) -/

theorem opField_lt (w : CommandWord) : opField w < 256 := (w.extractLsb 15 8).isLt

theorem aField_lt (w : CommandWord) : aField w < 16 := (w.extractLsb 7 4).isLt

theorem bField_lt (w : CommandWord) : bField w < 16 := (w.extractLsb 3 0).isLt

/-- A word is decided by its three fields. -/
theorem word_eq_iff_fields (w v : CommandWord) :
    w = v ↔ opField w = opField v ∧ aField w = aField v ∧ bField w = bField v := by
  refine ⟨by rintro rfl; exact ⟨rfl, rfl, rfl⟩, fun ⟨hop, ha, hb⟩ => ?_⟩
  rw [← fields_assemble w, hop, ha, hb, fields_assemble]

/-! A mask acts on each field by itself. -/

theorem opField_and (w m : CommandWord) : opField (w &&& m) = opField w &&& opField m := by
  simp only [opField, BitVec.extractLsb_and, BitVec.toNat_and]

theorem aField_and (w m : CommandWord) : aField (w &&& m) = aField w &&& aField m := by
  simp only [aField, BitVec.extractLsb_and, BitVec.toNat_and]

theorem bField_and (w m : CommandWord) : bField (w &&& m) = bField w &&& bField m := by
  simp only [bField, BitVec.extractLsb_and, BitVec.toNat_and]

/-- A command is well formed when both its fields are 4-bit numbers; an index it does not use counts as 0. -/
theorem wellFormed_iff (i : Instr) : i.wellFormed = true ↔ i.fieldA < 16 ∧ i.fieldB < 16 := by
  cases i <;> simp [Instr.wellFormed, indexFits, Instr.fieldA, Instr.fieldB]

/-! ### Decoding -/

/-- The fields of a word that decodes are the command's: in each row of the decoder the opcode is the row's, the fields
used are the command's indices, and the form has tested the others to be 0. -/
theorem fields_of_decode {w : CommandWord} {i : Instr} (h : decode w = .command i) :
    opField w = i.op ∧ aField w = i.fieldA ∧ bField w = i.fieldB := by
  unfold decode at h
  split at h
  all_goals
    simp only [formC0_eq_command, formCA_eq_command, formCB_eq_command, formCAB_eq_command, reduceCtorEq] at h
  all_goals grind [Instr.op, Instr.fieldA, Instr.fieldB]

/-- The row of a command's opcode reads the command from a word with the command's fields. -/
theorem decode_of_fields {w : CommandWord} {i : Instr} (hop : opField w = i.op) (ha : aField w = i.fieldA)
    (hb : bField w = i.fieldB) : decode w = .command i := by
  unfold decode
  rw [hop]
  cases i with
  | nop | stat | srst | cclr | cmix | couts | ctick | cgenbit | cgenseq | ksld | ksseq | ksrd | seqrd | hamm | equ =>
    exact (formC0_eq_command w _ _).mpr ⟨ha, hb, rfl⟩
  | rinit a | rinitr a | clane a => exact (formCA_eq_command w _ _).mpr ⟨hb, congrArg _ ha⟩
  | rlargest b | rout b | rgenseq b | rkeyat b | rkey b | rcfg b | cadd b | guess b =>
    exact (formCB_eq_command w _ _).mpr ⟨ha, congrArg _ hb⟩
  | rreset a b | rnext a b | brute a b => exact (formCAB_eq_command w _ _).mpr (congrArg₂ _ ha hb)

/-- A word reads as a command exactly when its three fields are the command's. -/
theorem decode_eq_command_iff (w : CommandWord) (i : Instr) :
    decode w = .command i ↔ opField w = i.op ∧ aField w = i.fieldA ∧ bField w = i.fieldB :=
  ⟨fields_of_decode, fun ⟨hop, ha, hb⟩ => decode_of_fields hop ha hb⟩

/-- Settles O1: the word of a well-formed command has the command's fields. -/
theorem decodeOfEncodeIsTheCommand : Obligations.DecodeOfEncodeIsTheCommand := by
  intro i hwf
  obtain ⟨ha, hb⟩ := (wellFormed_iff i).mp hwf
  exact (decode_eq_command_iff _ i).mpr
    (Laws.EncodeFields.of_fields i.op i.fieldA i.fieldB (Laws.EncodeFields.op_lt i) ha hb)

/-- Settles O2: the command's fields are the word's, so they fit and assemble to the word. -/
theorem encodeOfDecodeIsTheWord : Obligations.EncodeOfDecodeIsTheWord := by
  intro w i h
  obtain ⟨hop, ha, hb⟩ := fields_of_decode h
  refine ⟨(wellFormed_iff i).mpr ⟨ha ▸ aField_lt w, hb ▸ bField_lt w⟩, ?_⟩
  rw [encode, ← hop, ← ha, ← hb, fields_assemble]

/-- Settles O4: the decoder is evaluated on the fourteen words. -/
theorem writtenOutWordsDecode : Obligations.WrittenOutWordsDecode := by
  unfold Obligations.WrittenOutWordsDecode
  decide

/-! ### The opcode map (30_encoding.md R97) -/

/-- The command has a field `a` (forms `CA` and `CAB`). -/
def Instr.usesA : Instr → Bool
  | .rinit _ | .rinitr _ | .clane _ | .rreset _ _ | .rnext _ _ | .brute _ _ => true
  | _ => false

/-- The command has a field `b` (forms `CB` and `CAB`). -/
def Instr.usesB : Instr → Bool
  | .rlargest _ | .rout _ | .rgenseq _ | .rkeyat _ | .rkey _ | .rcfg _ | .cadd _ | .guess _ => true
  | .rreset _ _ | .rnext _ _ | .brute _ _ => true
  | _ => false

/-- The command of the same row with indices `a` and `b`, of which it takes those it uses. -/
def Instr.withIndices (a b : Nat) : Instr → Instr
  | .rinit _ => .rinit a
  | .rinitr _ => .rinitr a
  | .rreset _ _ => .rreset a b
  | .rlargest _ => .rlargest b
  | .rout _ => .rout b
  | .rnext _ _ => .rnext a b
  | .rgenseq _ => .rgenseq b
  | .rkeyat _ => .rkeyat b
  | .rkey _ => .rkey b
  | .rcfg _ => .rcfg b
  | .cadd _ => .cadd b
  | .clane _ => .clane a
  | .guess _ => .guess b
  | .brute _ _ => .brute a b
  | i => i

/-- The row of the opcode map that a command is of: the mask leaves out the index fields that the command uses. -/
def Instr.row (i : Instr) : OpcodeRow where
  mnemonic := i.mnemonic
  pattern := BitVec.ofNat 16 (i.op * 256 + 0 * 16 + 0)
  mask := BitVec.ofNat 16 (255 * 256 + (if i.usesA then 0 else 15) * 16 + (if i.usesB then 0 else 15))

/-- The opcode map lists the rows of the 29 commands. -/
theorem opcodeTable_eq : opcodeTable =
    [Instr.nop, .stat, .srst, .rinit 0, .rinitr 0, .rreset 0 0, .rlargest 0, .rout 0, .rnext 0 0, .rgenseq 0, .rkeyat 0,
      .rkey 0, .rcfg 0, .cclr, .cadd 0, .cmix, .couts, .ctick, .cgenbit, .cgenseq, .clane 0, .ksld, .ksseq, .ksrd,
      .seqrd, .hamm, .equ, .guess 0, .brute 0 0].map Instr.row := rfl

/-- Every row of the opcode map is a command's. -/
theorem exists_row_eq {row : OpcodeRow} (h : row ∈ opcodeTable) : ∃ i : Instr, i.row = row := by
  rw [opcodeTable_eq] at h
  obtain ⟨i, -, hi⟩ := List.mem_map.mp h
  exact ⟨i, hi⟩

theorem row_withIndices (a b : Nat) (i : Instr) : (i.withIndices a b).row = i.row := by cases i <;> rfl

/-- Every command's row is in the opcode map. -/
theorem row_mem_opcodeTable (i : Instr) : i.row ∈ opcodeTable := by
  rw [← row_withIndices 0 0, opcodeTable_eq]
  exact List.mem_map_of_mem (by cases i <;> simp [Instr.withIndices])

/-- No mnemonic stands in two rows. -/
theorem opcodeTable_mnemonic_inj {r₁ r₂ : OpcodeRow} (h₁ : r₁ ∈ opcodeTable) (h₂ : r₂ ∈ opcodeTable)
    (h : r₁.mnemonic = r₂.mnemonic) : r₁ = r₂ :=
  List.inj_on_of_nodup_map (f := OpcodeRow.mnemonic) (by decide) h₁ h₂ h

theorem op_withIndices (a b : Nat) (i : Instr) : (i.withIndices a b).op = i.op := by cases i <;> rfl

theorem fieldA_withIndices (a b : Nat) (i : Instr) : (i.withIndices a b).fieldA = if i.usesA then a else 0 := by
  cases i <;> rfl

theorem fieldB_withIndices (a b : Nat) (i : Instr) : (i.withIndices a b).fieldB = if i.usesB then b else 0 := by
  cases i <;> rfl

theorem withIndices_fields (i : Instr) : i.withIndices i.fieldA i.fieldB = i := by cases i <;> rfl

/-- A word matches a row when its opcode is the row's and the index fields that the mask keeps are 0. -/
theorem and_mask_eq_pattern_iff (w : CommandWord) (i : Instr) :
    w &&& i.row.mask = i.row.pattern ↔
      opField w = i.op ∧ aField w = (if i.usesA then aField w else 0) ∧
        bField w = (if i.usesB then bField w else 0) := by
  obtain ⟨hpop, hpa, hpb⟩ := Laws.EncodeFields.of_fields i.op 0 0 (Laws.EncodeFields.op_lt i) (by decide) (by decide)
  obtain ⟨hmop, hma, hmb⟩ := Laws.EncodeFields.of_fields 255 (if i.usesA then 0 else 15) (if i.usesB then 0 else 15)
    (by decide) (by split <;> decide) (by split <;> decide)
  have hop : opField w &&& 255 = opField w := Nat.and_two_pow_sub_one_of_lt_two_pow (n := 8) (opField_lt w)
  have ha : aField w &&& 15 = aField w := Nat.and_two_pow_sub_one_of_lt_two_pow (n := 4) (aField_lt w)
  have hb : bField w &&& 15 = bField w := Nat.and_two_pow_sub_one_of_lt_two_pow (n := 4) (bField_lt w)
  rw [word_eq_iff_fields, opField_and, aField_and, bField_and, Instr.row, hpop, hpa, hpb, hmop, hma, hmb, hop]
  cases i.usesA <;> cases i.usesB <;> simp [ha, hb]

/-- A word matches a command's row exactly when it decodes to the command of that row with the word's indices. -/
theorem and_mask_eq_pattern_iff_decode (w : CommandWord) (i : Instr) :
    w &&& i.row.mask = i.row.pattern ↔ decode w = .command (i.withIndices (aField w) (bField w)) := by
  rw [and_mask_eq_pattern_iff, decode_eq_command_iff, op_withIndices, fieldA_withIndices, fieldB_withIndices]

/-- A word that decodes matches its command's row. -/
theorem and_mask_eq_pattern_of_decode {w : CommandWord} {i : Instr} (h : decode w = .command i) :
    w &&& i.row.mask = i.row.pattern := by
  obtain ⟨-, ha, hb⟩ := fields_of_decode h
  rw [and_mask_eq_pattern_iff_decode, ha, hb, withIndices_fields, h]

/-- The words of a row decode to the commands with the row's mnemonic. -/
theorem matches_iff_decodes_to_mnemonic (w : CommandWord) {row : OpcodeRow} (hrow : row ∈ opcodeTable) :
    w &&& row.mask = row.pattern ↔ ∃ i, decode w = .command i ∧ i.mnemonic = row.mnemonic := by
  constructor
  · intro hmatch
    obtain ⟨j, rfl⟩ := exists_row_eq hrow
    exact ⟨_, (and_mask_eq_pattern_iff_decode w j).mp hmatch, congrArg OpcodeRow.mnemonic (row_withIndices _ _ j)⟩
  · rintro ⟨i, hdec, hmn⟩
    obtain rfl : i.row = row := opcodeTable_mnemonic_inj (row_mem_opcodeTable i) hrow hmn
    exact and_mask_eq_pattern_of_decode hdec

/-- A word is illegal exactly when it is of no row. -/
theorem illegal_iff_matches_no_row (w : CommandWord) :
    (∃ why, decode w = .illegal why) ↔ ∀ row ∈ opcodeTable, w &&& row.mask ≠ row.pattern := by
  cases hdec : decode w with
  | command i =>
    have hmatch := and_mask_eq_pattern_of_decode hdec
    exact iff_of_false (fun ⟨_, h⟩ => nomatch h) fun h => h i.row (row_mem_opcodeTable i) hmatch
  | illegal why =>
    refine ⟨fun _ row hrow hmatch => ?_, fun _ => ⟨why, rfl⟩⟩
    obtain ⟨i, hi, -⟩ := (matches_iff_decodes_to_mnemonic w hrow).mp hmatch
    exact nomatch hdec.symm.trans hi

/-- No word is of two rows: it decodes to one command. -/
theorem matches_one_row {w : CommandWord} {r₁ r₂ : OpcodeRow} (h₁ : r₁ ∈ opcodeTable) (h₂ : r₂ ∈ opcodeTable)
    (hm₁ : w &&& r₁.mask = r₁.pattern) (hm₂ : w &&& r₂.mask = r₂.pattern) : r₁ = r₂ := by
  obtain ⟨i, hi, hmn₁⟩ := (matches_iff_decodes_to_mnemonic w h₁).mp hm₁
  obtain ⟨j, hj, hmn₂⟩ := (matches_iff_decodes_to_mnemonic w h₂).mp hm₂
  obtain rfl : i = j := Decoded.command.inj (hi.symm.trans hj)
  exact opcodeTable_mnemonic_inj h₁ h₂ (hmn₁.symm.trans hmn₂)

/-- Settles O3: the four clauses one by one; the last restates a decoded word's fields as digits of the word. -/
theorem decodeFollowsTheOpcodeMap : Obligations.DecodeFollowsTheOpcodeMap := by
  refine ⟨fun w _ hrow => matches_iff_decodes_to_mnemonic w hrow, illegal_iff_matches_no_row,
    fun _ _ _ h₁ h₂ hm₁ hm₂ => matches_one_row h₁ h₂ hm₁ hm₂, fun w i h => ?_⟩
  obtain ⟨hop, ha, hb⟩ := fields_of_decode h
  exact ⟨hop ▸ opField_eq w, ha ▸ aField_eq w, hb ▸ bField_eq w⟩

end Sys2Proof
end

section
/-! PROOFS. The step on a presented packet (30_encoding.md R90, R94, R98, 93_implementation_defined.md U21). -/

namespace Sys2Proof.Machine

section
variable {s : State} {p : Packet} {rest : List HostEvent} (hhost : s.host = .command p :: rest)
include hhost

theorem step_command : step s = accept p (s.hostLeft rest) := by
  rw [step, advance, hhost]
  rfl

theorem step_of_fits (hfits : p.fits s.params = true) : step s = runPort ((s.hostLeft rest).present p) :=
  (step_command hhost).trans (if_pos hfits)

theorem step_of_not_fits (hfits : ¬ p.fits s.params = true) : step s = .refused .operandTooWide :=
  (step_command hhost).trans (if_neg hfits)

end

theorem runPort_of_decode {s : State} {i : Instr} (h : decode s.port.cw = .command i) : runPort s = exec i s := by
  rw [runPort, h]

theorem fits_iff (ps : Params) (p : Packet) :
    p.fits ps = true ↔ p.x < 2 ^ ps.xw ∧ p.y < 2 ^ ps.xw ∧ p.z < 2 ^ ps.xw ∧ p.rnd < 2 ^ ps.xw := by
  simp only [Packet.fits, Bool.and_eq_true, decide_eq_true_eq, and_assoc]

/-- Settles O5: the packet fits and is run, and its word decodes to the command. -/
theorem stepRunsTheDecodedCommand : Obligations.StepRunsTheDecodedCommand := by
  intro s p rest i hhost hfits hdec
  exact (step_of_fits hhost hfits).trans (runPort_of_decode hdec)

/-- Settles O9: a packet with an operand that is too wide does not fit. -/
theorem tooWideOperandIsRefused : Obligations.TooWideOperandIsRefused := by
  intro s p rest hhost hwide
  refine step_of_not_fits hhost fun hfits => ?_
  obtain ⟨hx, hy, hz, hrnd⟩ := (fits_iff s.params p).mp hfits
  omega

/-- A presented word enters a fault or is answered; neither touches the parameters or the host's events. -/
theorem runPort_cases (s : State) :
    (∃ c, runPort s = .next (s.faulted c)) ∨
      ∃ (u : State) (r0 r1 r2 : Nat), runPort s = .next (u.answered r0 r1 r2) ∧ u.host = s.host ∧
        u.params = s.params := by
  cases hdec : decode s.port.cw with
  | illegal why => exact .inl ⟨.illegalCommand, by rw [runPort, hdec, raise_eq]⟩
  | command i =>
    rw [runPort_of_decode hdec]
    obtain ⟨c, -, hc⟩ | ⟨u, r0, r1, r2, hu, hans⟩ := exec_cases i s
    · exact .inl ⟨c, hc⟩
    · exact .inr ⟨u, r0, r1, r2, hu, hans.host, hans.params⟩

/-- Settles O10: a fault answers its code beside zeros, any other answer is `OK`. -/
theorem everyPresentedCommandIsAnswered : Obligations.EveryPresentedCommandIsAnswered := by
  intro s p rest hhost hfits
  rw [step_of_fits hhost hfits]
  obtain ⟨c, hc⟩ | ⟨u, r0, r1, r2, hu, huhost, huparams⟩ := runPort_cases ((s.hostLeft rest).present p)
  · exact ⟨_, _, hc, rfl, rfl, rfl, c.code_le, fun _ => ⟨rfl, rfl, rfl⟩⟩
  · exact ⟨_, _, hu, rfl, huhost, huparams, Nat.zero_le _, fun hne => absurd rfl hne⟩

end Sys2Proof.Machine
end

section
/-! PROOFS. A command looks at no operand but those it reads (30_encoding.md R92, R97). -/

namespace Sys2Proof.Machine

/-- Two results that are next states, the second the first but for the packet `p` on the command port. -/
def SameButPort (p : Packet) (res res' : Result) : Prop :=
  ∃ t : State, res = .next t ∧ res' = .next (t.present p)

namespace SameButPort
variable {p : Packet}

theorem answers {u : State} {r0 r1 r2 : Nat} : SameButPort p (respond r0 r1 r2 u) (respond r0 r1 r2 (u.present p)) :=
  ⟨_, rfl, rfl⟩

/-- A fault records the command word alone of the packet (60_exceptions.md R280). -/
theorem raises {s : State} {c : Cause} (hcw : p.cw = s.port.cw) :
    SameButPort p (raise c s) (raise c (s.present p)) :=
  ⟨s.faulted c, rfl, by rw [raise_eq, State.faulted, State.present_port, hcw]; rfl⟩

/-- Results that agree in both branches of a test agree. -/
theorem ite {c : Prop} [Decidable c] {a a' b b' : Result} (ha : SameButPort p a a') (hb : SameButPort p b b') :
    SameButPort p (if c then a else b) (if c then a' else b') := by
  split
  · exact ha
  · exact hb

end SameButPort

/-- With the operands that the command reads kept, every test and value of the command is the same. The commands are
grouped by the tests they make. -/
theorem exec_present {s : State} {p : Packet} {i : Instr} (hcw : p.cw = s.port.cw)
    (hx : readsX i = true → p.x = s.port.x) (hy : readsY i = true → p.y = s.port.y)
    (hz : readsZ i = true → p.z = s.port.z) (hrnd : readsRnd i = true → p.rnd = s.port.rnd) :
    SameButPort p (exec i s) (exec i (s.present p)) := by
  obtain ⟨cw, x, y, z, rnd⟩ := p
  have hraise {c : Cause} : SameButPort ⟨cw, x, y, z, rnd⟩ (raise c s) (raise c (s.present ⟨cw, x, y, z, rnd⟩)) :=
    .raises hcw
  cases i with
  | nop | stat | srst | cclr | couts => exact .answers
  | rinit a =>
    obtain rfl := hx rfl
    obtain rfl := hy rfl
    obtain rfl := hz rfl
    exact .ite hraise (.ite hraise (.ite hraise (.ite hraise .answers)))
  | rinitr a =>
    obtain rfl := hx rfl
    obtain rfl := hy rfl
    obtain rfl := hrnd rfl
    exact .ite hraise (.ite hraise (.ite hraise .answers))
  | cmix | ksld =>
    obtain rfl := hx rfl
    obtain rfl := hy rfl
    exact .ite hraise (.ite hraise .answers)
  | rreset a b =>
    obtain rfl := hx rfl
    exact .ite hraise (match s.reg b with
      | none => hraise
      | some r => .ite hraise .answers)
  | rkeyat b =>
    obtain rfl := hx rfl
    exact .ite hraise (match s.reg b with
      | none => hraise
      | some r => .ite .answers .answers)
  | rgenseq b =>
    obtain rfl := hx rfl
    exact .ite hraise (match s.reg b with
      | none => hraise
      | some r => .answers)
  | rlargest b | rout b | rnext a b | rkey b | rcfg b | cadd b =>
    exact .ite hraise (match s.reg b with
      | none => hraise
      | some r => .answers)
  | cgenseq =>
    obtain rfl := hx rfl
    exact .ite hraise (.ite .answers (match s.applicable with
      | .error c => hraise
      | .ok f => .answers))
  | cgenbit =>
    simp only [exec, execCgenbit]
    exact match s.applicable with
      | .error c => hraise
      | .ok f => .answers
  | ctick =>
    simp only [exec, execCtick]
    exact match s.configured with
      | .error c => hraise
      | .ok f => .answers
  | clane a =>
    simp only [exec, execClane]
    exact match s.lanes[a]? with
      | none => hraise
      | some r => .answers
  | ksseq | seqrd =>
    simp only [exec, execKsseq, execSeqrd]
    exact match s.seq with
      | none => hraise
      | some q => .answers
  | ksrd =>
    simp only [exec, execKsrd]
    exact match s.ks with
      | none => hraise
      | some k => .answers
  | hamm | equ =>
    simp only [exec, execHamm, execEqu]
    exact match s.comparable with
      | .error c => hraise
      | .ok (q, k) => .answers
  | guess b =>
    exact .ite hraise (match s.reg b, s.ks with
      | none, none | none, some _ | some _, none => hraise
      | some r, some k => .answers)
  | brute a b =>
    exact .ite hraise (match s.reg b, s.ks with
      | none, none | none, some _ | some _, none => hraise
      | some r, some k =>
        match s.applicable with
        | .error c => hraise
        | .ok f =>
          .ite hraise (match bruteForceKey r.size r.mask k (substituteLane s.lanes f a) with
            | none => .answers
            | some key => .answers))

/-- Settles O20: the second packet is the first in all that the command reads. -/
theorem unreadOperandsHaveNoEffect : Obligations.UnreadOperandsHaveNoEffect := by
  intro i s t p hcw hx hy hz hrnd hexec
  obtain ⟨t', ht', hpresent⟩ := exec_present hcw hx hy hz hrnd
  obtain rfl : t = t' := Host.Outcome.next.inj (hexec.symm.trans ht')
  exact hpresent

end Sys2Proof.Machine
end

section
/-! PROOFS. The register step `Next` by its bits, the keys it leads through, and the sequences it generates
(40_register.md R120 to R125, R140 to R143). -/

namespace Sys2Proof.Machine

/-! ### The bits of the successor key -/

theorem nextKey_eq_xor (s m k : Nat) :
    nextKey s m k = trunc s (k <<< 1) ^^^ (if outBit s k then m else 0) := by
  unfold nextKey
  split <;> simp

theorem testBit_nextKey (s m k j : Nat) :
    (nextKey s m k).testBit j =
      ((decide (j < s) && (decide (1 ≤ j) && k.testBit (j - 1))) ^^ (outBit s k && m.testBit j)) := by
  rw [nextKey_eq_xor, Nat.testBit_xor, trunc, Nat.testBit_mod_two_pow, Nat.testBit_shiftLeft]
  cases outBit s k <;> simp

/-- Bit 0 of the successor comes from the mask alone (40_register.md R122). -/
theorem testBit_nextKey_zero (s m k : Nat) : (nextKey s m k).testBit 0 = (outBit s k && m.testBit 0) := by
  simpa using testBit_nextKey s m k 0

/-- Every other bit moves up by one place, meets the mask's bit, and is cut off at the size (40_register.md R122). -/
theorem testBit_nextKey_succ (s m k j : Nat) :
    (nextKey s m k).testBit (j + 1) = ((decide (j + 1 < s) && k.testBit j) ^^ (outBit s k && m.testBit (j + 1))) := by
  simpa using testBit_nextKey s m k (j + 1)

/-- Settles O43: the successor bit by bit, and its bound. -/
theorem nextKeyIsTheGaloisStep : Obligations.NextKeyIsTheGaloisStep := by
  intro s m k hs hm hk
  refine ⟨?_, nextKey_lt s m k hm, testBit_nextKey_zero s m k, fun j hj => ?_⟩
  · rw [outBit, Nat.testBit_eq_decide_div_mod_eq, decide_eq_true_eq]
  · rw [testBit_nextKey_succ, decide_eq_true hj, Bool.true_and]

/-! ### The bit that truncation drops (40_register.md R123) -/

theorem two_mul_two_pow_pred {s : Nat} (hs : 1 ≤ s) : 2 * 2 ^ (s - 1) = 2 ^ s := mul_pow_sub_one (Nat.ne_of_gt hs) 2

/-- A key of `s` bits is its lower `s - 1` bits below its output bit. -/
theorem key_eq_low_add_outBit {s k : Nat} (hs : 1 ≤ s) (hk : k < 2 ^ s) :
    k = k % 2 ^ (s - 1) + (if outBit s k then 2 ^ (s - 1) else 0) := by
  obtain ⟨t, rfl⟩ := Nat.exists_eq_add_of_le' hs
  have hsplit : k = k % 2 ^ t + 2 ^ t * (k.testBit t).toNat := by
    rw [Nat.toNat_testBit, ← Nat.mod_pow_succ, Nat.mod_eq_of_lt hk]
  rw [outBit, Nat.add_sub_cancel]
  cases hb : k.testBit t <;> simpa [hb] using hsplit

/-- The shifted key without its top bit is the lower `s - 1` bits, shifted. -/
theorem two_mul_mod_two_pow {s : Nat} (hs : 1 ≤ s) (k : Nat) : 2 * k % 2 ^ s = 2 * (k % 2 ^ (s - 1)) := by
  rw [← Nat.mul_mod_mul_left, two_mul_two_pow_pred hs]

theorem trunc_shiftLeft_one (s k : Nat) : trunc s (k <<< 1) = 2 * k % 2 ^ s := by
  rw [trunc, Nat.shiftLeft_eq, pow_one, Nat.mul_comm]

theorem nextKey_of_outBit {s m k : Nat} (h : outBit s k = true) : nextKey s m k = 2 * k % 2 ^ s ^^^ m := by
  rw [nextKey, if_pos h, trunc_shiftLeft_one]

theorem nextKey_of_not_outBit {s m k : Nat} (h : outBit s k = false) : nextKey s m k = 2 * k % 2 ^ s := by
  rw [nextKey, h, if_neg Bool.false_ne_true, trunc_shiftLeft_one]

/-- Settles O44: truncation distributes over the exclusive-or and leaves the mask, and the shifted key is the truncated
one with the output bit above it. -/
theorem truncationPointIsImmaterial : Obligations.TruncationPointIsImmaterial := by
  intro s m k hs hm hk
  constructor
  · rw [nextKey, trunc_shiftLeft_one, Nat.xor_mod_two_pow, Nat.mod_eq_of_lt hm]
  · have hkey := key_eq_low_add_outBit hs hk
    have hpow := two_mul_two_pow_pred hs
    rw [two_mul_mod_two_pow hs]
    split at hkey
    next hout =>
      rw [if_pos hout]
      omega
    next hout =>
      rw [if_neg hout]
      omega

/-! ### Linearity, key 0 and width 1 (40_register.md R140 to R142) -/

theorem outBit_xor (s k₁ k₂ : Nat) : outBit s (k₁ ^^^ k₂) = (outBit s k₁ ^^ outBit s k₂) := Nat.testBit_xor ..

theorem nextKey_xor (s m k₁ k₂ : Nat) : nextKey s m (k₁ ^^^ k₂) = nextKey s m k₁ ^^^ nextKey s m k₂ := by
  apply Nat.eq_of_testBit_eq
  intro j
  simp only [Nat.testBit_xor, testBit_nextKey, outBit_xor, Bool.and_xor_distrib_right, Bool.and_xor_distrib_left]
  simp only [Bool.xor_assoc, Bool.xor_left_comm]

@[simp] theorem outBit_zero (s : Nat) : outBit s 0 = false := Nat.zero_testBit _

@[simp] theorem nextKey_zero (s m : Nat) : nextKey s m 0 = 0 := by
  rw [nextKey_of_not_outBit (outBit_zero s), Nat.mul_zero, Nat.zero_mod]

theorem regSeq_zero (s m n : Nat) : regSeq s m 0 n = List.replicate n false := by
  induction n with
  | zero => rfl
  | succ n ih => rw [regSeq, outBit_zero, nextKey_zero, ih, List.replicate_succ]

theorem nextKey_width_one {m k : Nat} (hm : m < 2) (hk : k < 2) : nextKey 1 m k = k &&& m := by
  interval_cases m <;> interval_cases k <;> rfl

/-- Settles O45: the output bit and every bit of the successor are linear in the key; key 0 has output bit 0. -/
theorem nextKeyIsLinearWithFixedPointZero : Obligations.NextKeyIsLinearWithFixedPointZero :=
  ⟨fun s m k₁ k₂ _ _ _ _ => nextKey_xor s m k₁ k₂, fun s m n => ⟨nextKey_zero s m, regSeq_zero s m n⟩,
    fun _ _ => nextKey_width_one⟩

/-! ### The predecessor (40_register.md R143) -/

/-- The predecessor formula of 40_register.md R143: bit 0 of `k` says whether the mask was exclusive-ored in, and is the
bit that was dropped. -/
def prevKey (s m k : Nat) : Nat :=
  (k ^^^ (if k.testBit 0 then m else 0)) >>> 1 ||| (if k.testBit 0 then 2 ^ (s - 1) else 0)

/-- With bit 0 of the mask set, bit 0 of the successor is the output bit, so the formula undoes the step. -/
theorem prevKey_nextKey {s m k : Nat} (hs : 1 ≤ s) (hm : m.testBit 0 = true) (hk : k < 2 ^ s) :
    prevKey s m (nextKey s m k) = k := by
  have hout : (nextKey s m k).testBit 0 = outBit s k := by rw [testBit_nextKey_zero, hm, Bool.and_true]
  have hlow : (nextKey s m k ^^^ (if outBit s k then m else 0)) >>> 1 = k % 2 ^ (s - 1) := by
    rw [nextKey_eq_xor, Nat.xor_xor_cancel_right, trunc_shiftLeft_one, two_mul_mod_two_pow hs, Nat.shiftRight_one,
      Nat.mul_div_cancel_left _ Nat.two_pos]
  have hkey := key_eq_low_add_outBit hs hk
  rw [prevKey, hout, hlow]
  cases hb : outBit s k
  · simpa [hb] using hkey.symm
  · have hor := Nat.two_pow_add_eq_or_of_lt (Nat.mod_lt k (Nat.two_pow_pos (s - 1))) 1
    rw [Nat.mul_one] at hor
    rw [if_pos rfl, Nat.or_comm, ← hor, Nat.add_comm]
    simpa [hb] using hkey.symm

/-- The key with only the top bit is shifted to 0, and the mask is left. -/
theorem nextKey_top_bit {s : Nat} (hs : 1 ≤ s) (m : Nat) : nextKey s m (2 ^ (s - 1)) = m := by
  have hout : outBit s (2 ^ (s - 1)) = true := Nat.testBit_two_pow_self
  rw [nextKey_of_outBit hout, two_mul_two_pow_pred hs, Nat.mod_self, Nat.zero_xor]

/-- An even mask is the successor of its half, whose output bit is 0. -/
theorem nextKey_half {s m : Nat} (hs : 1 ≤ s) (hm : m < 2 ^ s) (hbit : m.testBit 0 = false) :
    nextKey s m (m / 2) = m := by
  have hpow := two_mul_two_pow_pred hs
  have hout : outBit s (m / 2) = false := Nat.testBit_lt_two_pow (by omega)
  have heven : 2 * (m / 2) = m := by
    rw [Nat.testBit_zero, decide_eq_false_iff_not] at hbit
    omega
  rw [nextKey_of_not_outBit hout, heven, Nat.mod_eq_of_lt hm]

/-- Settles O46: with bit 0 of the mask 1 the predecessor formula undoes the step; with bit 0 of the mask 0 the key with
only the top bit and half the mask both step to the mask. -/
theorem nextKeyIsBijectiveIffMaskBitZero : Obligations.NextKeyIsBijectiveIffMaskBitZero := by
  intro s m hs hm
  refine ⟨⟨fun hinj => ?_, fun hbit k₁ k₂ hk₁ hk₂ heq => ?_⟩, fun hbit k hk => prevKey_nextKey hs hbit hk⟩
  · by_contra hbit
    rw [Bool.not_eq_true] at hbit
    have hpow := two_mul_two_pow_pred hs
    have hsame : 2 ^ (s - 1) = m / 2 :=
      hinj _ _ (by omega) (by omega) ((nextKey_top_bit hs m).trans (nextKey_half hs hm hbit).symm)
    omega
  · rw [← prevKey_nextKey hs hbit hk₁, heq, prevKey_nextKey hs hbit hk₂]

/-! ### The cycle (40_register.md R143) -/

theorem iterate_nextKey_lt {s m k : Nat} (hm : m < 2 ^ s) (hk : k < 2 ^ s) (n : Nat) : (nextKey s m)^[n] k < 2 ^ s := by
  cases n with
  | zero => exact hk
  | succ n =>
    rw [Function.iterate_succ_apply']
    exact nextKey_lt s m _ hm

/-- Among the first `2^s + 1` keys two are equal, since there are `2^s` keys. -/
theorem exists_iterate_nextKey_eq {s m k : Nat} (hm : m < 2 ^ s) (hk : k < 2 ^ s) :
    ∃ i j, i < j ∧ j ≤ 2 ^ s ∧ (nextKey s m)^[i] k = (nextKey s m)^[j] k := by
  have hcard : (Finset.range (2 ^ s)).card < (Finset.range (2 ^ s + 1)).card := by simp
  obtain ⟨i, hi, j, hj, hne, heq⟩ := Finset.exists_ne_map_eq_of_card_lt_of_maps_to hcard
    fun n _ => Finset.mem_coe.mpr (Finset.mem_range.mpr (iterate_nextKey_lt hm hk n))
  rw [Finset.mem_range, Nat.lt_succ_iff] at hi hj
  rcases hne.lt_or_gt with hlt | hlt
  · exact ⟨i, j, hlt, hj, heq⟩
  · exact ⟨j, i, hlt, hi, heq.symm⟩

/-- Once a point recurs, every later one recurs with the same period. -/
theorem iterate_add_period {f : Nat → Nat} {k i j n : Nat} (hij : i ≤ j) (heq : f^[i] k = f^[j] k)
    (hn : i ≤ n) : f^[n + (j - i)] k = f^[n] k := by
  obtain ⟨d, rfl⟩ := Nat.exists_eq_add_of_le' hn
  have hidx : d + i + (j - i) = d + j := by omega
  rw [hidx, Function.iterate_add_apply, ← heq, ← Function.iterate_add_apply]

/-- Settles O47: a recurrence among the first `2^s + 1` keys gives the tail and the period. -/
theorem keysEnterACycle : Obligations.KeysEnterACycle := by
  intro s m k _ hm hk
  obtain ⟨i, j, hij, hj, heq⟩ := exists_iterate_nextKey_eq hm hk
  exact ⟨i, j - i, by omega, by omega, by omega, fun n => iterate_add_period hij.le heq⟩

/-! ### Output sequences and key lists (40_register.md R124, R125) -/

theorem regSeq_getElem? {s m k n j : Nat} (hj : j < n) :
    (regSeq s m k n)[j]? = some (outBit s ((nextKey s m)^[j] k)) := by
  induction n generalizing k j with
  | zero => exact absurd hj (Nat.not_lt_zero j)
  | succ n ih =>
    cases j with
    | zero => rfl
    | succ j => exact ih (Nat.lt_of_succ_lt_succ hj)

/-- Settles O48, by induction on the length. -/
theorem regSeqIsTheOutputBits : Obligations.RegSeqIsTheOutputBits :=
  fun s m k n => ⟨regSeq_length s m k n, fun _ => regSeq_getElem?⟩

theorem allKeys_length (s : Nat) : (allKeys s).length = 2 ^ s - 1 := List.length_range'

theorem allKeys_getElem? {s i : Nat} (hi : i < 2 ^ s - 1) : (allKeys s)[i]? = some (i + 1) := by
  rw [allKeys, largestKey, List.getElem?_range' hi, Nat.one_mul, Nat.add_comm]

/-- Settles O49: the list is a range from 1, and `2^s - 1` is positive. -/
theorem allKeysAscendFromOne : Obligations.AllKeysAscendFromOne := by
  intro s hs
  refine ⟨allKeys_length s, ?_, fun i => allKeys_getElem?⟩
  have hpow : 1 < 2 ^ s := Nat.one_lt_two_pow (Nat.ne_of_gt hs)
  rw [allKeys_length]
  omega

end Sys2Proof.Machine
end

section
/-! PROOFS. The commands of the Register family: the tests in their order, and the effect (40_register.md R130 to
R139). -/

namespace Sys2Proof

/-- A command's word with its fields weighed as in 30_encoding.md R91. -/
theorem encode_eq_ofNat (i : Instr) : encode i = BitVec.ofNat 16 (256 * i.op + 16 * i.fieldA + i.fieldB) :=
  encode_of_fields i _ (by rw [Nat.mul_comm 256, Nat.mul_comm 16])

end Sys2Proof

namespace Sys2Proof.Machine

/-! ### The tests that construct a register: index, size, mask (40_register.md R130, R131) -/

/-- The first three tests of `RINIT` and `RINITR`, and `legal` for what follows them. -/
def State.constructReg (s : State) (a : Nat) (legal : Result) : Result :=
  if s.NoRegister a then raise .outOfRange s
  else if s.BadSize s.x then raise .invalidConfig s
  else if 2 ^ s.x ≤ s.y then raise .invalidConfig s
  else legal

section
variable {s : State} {a : Nat} {legal : Result}

theorem State.constructReg_of_noRegister (ha : s.params.nr ≤ a) :
    s.constructReg a legal = .next (s.faulted .outOfRange) := if_pos ha

theorem State.constructReg_of_badConfig (ha : a < s.params.nr)
    (hbad : s.port.x = 0 ∨ s.params.wmax < s.port.x ∨ 2 ^ s.port.x ≤ s.port.y) :
    s.constructReg a legal = .next (s.faulted .invalidConfig) := by
  rw [State.constructReg, if_neg (not_le.mpr ha), ← raise_eq]
  by_cases hsize : s.BadSize s.x
  · rw [if_pos hsize]
  · rw [if_neg hsize, if_pos ((or_assoc.mpr hbad).resolve_left hsize)]

theorem State.constructReg_of_legal (ha : a < s.params.nr) (hpos : 1 ≤ s.port.x) (hmax : s.port.x ≤ s.params.wmax)
    (hmask : s.port.y < 2 ^ s.port.x) : s.constructReg a legal = legal := by
  have hsize : ¬ s.BadSize s.x := not_or.mpr ⟨Nat.ne_of_gt hpos, not_lt.mpr hmax⟩
  rw [State.constructReg, if_neg (not_le.mpr ha), if_neg hsize, if_neg (not_le.mpr hmask)]

end

theorem exec_rinit (a : Nat) (s : State) :
    exec (.rinit a) s = s.constructReg a
      (if largestKey s.x < s.z then raise .invalidKey s else respond 0 0 0 (s.setReg a ⟨s.x, s.y, s.z⟩)) := rfl

theorem exec_rinitr (a : Nat) (s : State) :
    exec (.rinitr a) s = s.constructReg a
      (respond (trunc s.x s.rnd) 0 0 (s.setReg a ⟨s.x, s.y, trunc s.x s.rnd⟩)) := rfl

/-- Settles O24: the shared tests, and behind them the test of the key. -/
theorem rinitConstructsTheRegister : Obligations.RinitConstructsTheRegister := by
  intro a s
  rw [exec_rinit]
  refine ⟨encode_eq_ofNat (.rinit a), State.constructReg_of_noRegister, State.constructReg_of_badConfig, ?_, ?_⟩
  · intro ha hpos hmax hmask hkey
    exact (State.constructReg_of_legal ha hpos hmax hmask).trans (if_pos hkey)
  · intro ha hpos hmax hmask hkey
    exact (State.constructReg_of_legal ha hpos hmax hmask).trans (if_neg (not_lt.mpr hkey))

/-- Settles O25: the shared tests, and behind them no other. -/
theorem rinitrConstructsFromTheDraw : Obligations.RinitrConstructsFromTheDraw := by
  intro a s
  rw [exec_rinitr]
  exact ⟨encode_eq_ofNat (.rinitr a), State.constructReg_of_noRegister, State.constructReg_of_badConfig,
    State.constructReg_of_legal⟩

/-! ### The tests of a source register: range, then validity (40_register.md R132 to R139) -/

/-- The tests of a command that reads `L[b]`: `OutOfRange` where `out` holds, then `NotLoaded` where `L[b]` is invalid,
and `f` of its triple for what follows them. -/
def State.withSource (s : State) (out : Prop) [Decidable out] (b : Nat) (f : Reg → Result) : Result :=
  if out then raise .outOfRange s
  else
    match s.reg b with
    | none => raise .notLoaded s
    | some r => f r

section
variable {s : State} {out : Prop} [Decidable out] {b : Nat} {f : Reg → Result}

theorem State.withSource_of_out (h : out) : s.withSource out b f = .next (s.faulted .outOfRange) := if_pos h

theorem State.withSource_of_none (h : ¬ out) (hb : s.reg b = none) :
    s.withSource out b f = .next (s.faulted .notLoaded) := by
  rw [State.withSource, if_neg h, hb, raise_eq]

theorem State.withSource_of_some {r : Reg} (h : ¬ out) (hb : s.reg b = some r) : s.withSource out b f = f r := by
  rw [State.withSource, if_neg h, hb]

end

theorem State.not_noRegister_or {s : State} {a b : Nat} (ha : a < s.params.nr) (hb : b < s.params.nr) :
    ¬ (s.NoRegister a ∨ s.NoRegister b) := not_or.mpr ⟨not_le.mpr ha, not_le.mpr hb⟩

theorem exec_rreset (a b : Nat) (s : State) :
    exec (.rreset a b) s = s.withSource (s.NoRegister a ∨ s.NoRegister b) b fun r =>
      if largestKey r.size < s.x then raise .invalidKey s
      else respond 0 0 0 (s.setReg a ⟨r.size, r.mask, s.x⟩) := rfl

theorem exec_rlargest (b : Nat) (s : State) :
    exec (.rlargest b) s = s.withSource (s.NoRegister b) b fun r => respond (largestKey r.size) 0 0 s := rfl

theorem exec_rout (b : Nat) (s : State) :
    exec (.rout b) s = s.withSource (s.NoRegister b) b fun r => respond (bitVal (outBit r.size r.key)) 0 0 s := rfl

theorem exec_rkey (b : Nat) (s : State) :
    exec (.rkey b) s = s.withSource (s.NoRegister b) b fun r => respond r.key 0 0 s := rfl

theorem exec_rcfg (b : Nat) (s : State) :
    exec (.rcfg b) s = s.withSource (s.NoRegister b) b fun r => respond r.size r.mask 0 s := rfl

theorem exec_rnext (a b : Nat) (s : State) :
    exec (.rnext a b) s = s.withSource (s.NoRegister a ∨ s.NoRegister b) b fun r =>
      respond r.next.key 0 0 (s.setReg a r.next) := rfl

theorem exec_rgenseq (b : Nat) (s : State) :
    exec (.rgenseq b) s = s.withSource (s.NoRegister b ∨ s.TooLong s.x) b fun r =>
      respond (seqVal (regSeq r.size r.mask r.key s.x)) (regSeq r.size r.mask r.key s.x).length 0
        (s.setSeq (regSeq r.size r.mask r.key s.x)) := rfl

theorem exec_rkeyat (b : Nat) (s : State) :
    exec (.rkeyat b) s = s.withSource (s.NoRegister b) b fun r =>
      if s.x < largestKey r.size then respond (s.x + 1) 1 0 s else respond 0 0 0 s := rfl

/-- Settles O26: the source's tests, and behind them the test of the key. -/
theorem rresetReplacesTheKey : Obligations.RresetReplacesTheKey := by
  intro a b s
  rw [exec_rreset]
  refine ⟨encode_eq_ofNat (.rreset a b), State.withSource_of_out,
    fun ha hb => State.withSource_of_none (State.not_noRegister_or ha hb), ?_, ?_⟩
  · intro r ha hb hr hkey
    exact (State.withSource_of_some (State.not_noRegister_or ha hb) hr).trans (if_pos hkey)
  · intro r ha hb hr hkey
    exact (State.withSource_of_some (State.not_noRegister_or ha hb) hr).trans (if_neg (not_lt.mpr hkey))

/-- The four commands that read one register have its tests in common. -/
theorem exists_exec_eq_withSource {b : Nat} {i : Instr} (hi : i ∈ [Instr.rlargest b, .rout b, .rkey b, .rcfg b])
    (s : State) : ∃ f, exec i s = s.withSource (s.NoRegister b) b f := by
  simp only [List.mem_cons, List.not_mem_nil, or_false] at hi
  rcases hi with rfl | rfl | rfl | rfl
  · exact ⟨_, exec_rlargest b s⟩
  · exact ⟨_, exec_rout b s⟩
  · exact ⟨_, exec_rkey b s⟩
  · exact ⟨_, exec_rcfg b s⟩

/-- Settles O27: the tests are shared, and each command answers from the triple. -/
theorem registerReadsAnswer : Obligations.RegisterReadsAnswer := by
  intro b s
  refine ⟨⟨encode_eq_ofNat (.rlargest b), encode_eq_ofNat (.rout b), encode_eq_ofNat (.rkey b),
    encode_eq_ofNat (.rcfg b)⟩, fun i hi => ?_, fun r hb hr => ?_⟩
  · obtain ⟨f, hf⟩ := exists_exec_eq_withSource hi s
    rw [hf]
    exact ⟨State.withSource_of_out, fun hb => State.withSource_of_none (not_le.mpr hb)⟩
  · rw [exec_rlargest, exec_rout, exec_rkey, exec_rcfg]
    simp only [State.withSource_of_some (not_le.mpr hb) hr]
    exact ⟨rfl, rfl, rfl, rfl⟩

/-- Settles O28: the source's tests, and behind them the step. -/
theorem rnextStepsTheRegister : Obligations.RnextStepsTheRegister := by
  intro a b s
  rw [exec_rnext]
  exact ⟨encode_eq_ofNat (.rnext a b), State.withSource_of_out,
    fun ha hb => State.withSource_of_none (State.not_noRegister_or ha hb),
    fun r ha hb => State.withSource_of_some (State.not_noRegister_or ha hb)⟩

/-- Settles O29: the source's tests, and a sequence of the length asked for. -/
theorem rgenseqFillsTheSequenceBuffer : Obligations.RgenseqFillsTheSequenceBuffer := by
  intro b s
  have hin (hb : b < s.params.nr) (hx : s.port.x ≤ s.params.lmax) : ¬ (s.NoRegister b ∨ s.TooLong s.x) :=
    not_or.mpr ⟨not_le.mpr hb, not_lt.mpr hx⟩
  rw [exec_rgenseq]
  simp only [regSeq_length]
  exact ⟨encode_eq_ofNat (.rgenseq b), State.withSource_of_out, fun hb hx => State.withSource_of_none (hin hb hx),
    fun r hb hx => State.withSource_of_some (hin hb hx)⟩

/-- Settles O30: the source's tests, and behind them the end of the key list. -/
theorem rkeyatEnumeratesTheKeys : Obligations.RkeyatEnumeratesTheKeys := by
  intro b s
  rw [exec_rkeyat]
  refine ⟨encode_eq_ofNat (.rkeyat b), State.withSource_of_out,
    fun hb => State.withSource_of_none (not_le.mpr hb), ?_, ?_⟩
  · intro r hb hr hx
    exact (State.withSource_of_some (not_le.mpr hb) hr).trans (if_pos hx)
  · intro r hb hr hx
    exact (State.withSource_of_some (not_le.mpr hb) hr).trans (if_neg (not_lt.mpr hx))

end Sys2Proof.Machine
end

section
/-! PROOFS. The lanes under the tick and `CombSeq`: which lanes it leaves, and its bits (41_combinator.md R162, R163,
R182). -/

namespace Sys2Proof.Machine

/-! ### The tick -/

theorem iterate_tickAll (lanes : List Reg) (n : Nat) : tickAll^[n] lanes = lanes.map Reg.next^[n] := by
  induction n with
  | zero => exact (List.map_id lanes).symm
  | succ n ih => rw [Function.iterate_succ_apply', Function.iterate_succ', ih, tickAll, List.map_map]

/-- Stepping a register steps its key alone. -/
theorem Reg.iterate_next (r : Reg) (n : Nat) :
    Reg.next^[n] r = { r with key := (nextKey r.size r.mask)^[n] r.key } := by
  induction n with
  | zero => rfl
  | succ n ih =>
    rw [Function.iterate_succ_apply', ih, Function.iterate_succ_apply']
    rfl

theorem iterate_tickAll_eq_map (lanes : List Reg) (n : Nat) :
    tickAll^[n] lanes = lanes.map fun r => { r with key := (nextKey r.size r.mask)^[n] r.key } := by
  rw [iterate_tickAll]
  exact List.map_congr_left fun r _ => r.iterate_next n

theorem iterate_tickAll_sizes_masks (lanes : List Reg) (n : Nat) :
    (tickAll^[n] lanes).map (fun r => (r.size, r.mask)) = lanes.map fun r => (r.size, r.mask) := by
  rw [iterate_tickAll_eq_map, List.map_map]
  rfl

/-! ### The bits and the lanes of `CombSeq` -/

/-- The first bit is mixed from the lanes, and the rest is made after one tick. -/
theorem combSeq_succ (lanes : List Reg) (f : MixFn) (n : Nat) :
    combSeq lanes f (n + 1) =
      (f.apply (outBits lanes) :: (combSeq (tickAll lanes) f n).1, (combSeq (tickAll lanes) f n).2) := rfl

theorem combSeq_lanes (lanes : List Reg) (f : MixFn) (n : Nat) : (combSeq lanes f n).2 = tickAll^[n] lanes := by
  induction n generalizing lanes with
  | zero => rfl
  | succ n ih => rw [combSeq_succ, ih, Function.iterate_succ_apply]

theorem combSeq_getElem? {lanes : List Reg} {f : MixFn} {n j : Nat} (hj : j < n) :
    (combSeq lanes f n).1[j]? = some (f.apply (outBits (tickAll^[j] lanes))) := by
  induction n generalizing lanes j with
  | zero => exact absurd hj (Nat.not_lt_zero j)
  | succ n ih =>
    cases j with
    | zero => rfl
    | succ j => exact ih (Nat.lt_of_succ_lt_succ hj)

/-- Settles O53: the bits by induction on the length, and the lanes as `n` ticks of each. -/
theorem combSeqMixesBeforeEachTick : Obligations.CombSeqMixesBeforeEachTick := fun lanes f n =>
  ⟨combSeq_length lanes f n, fun _ => combSeq_getElem?,
    (combSeq_lanes lanes f n).trans (iterate_tickAll_eq_map lanes n)⟩

/-! ### One lane and the identity (41_combinator.md R182) -/

/-- The table `0b10` of one argument is the identity. -/
theorem apply_identity (b : Bool) : (MixFn.mk 1 0b10).apply [b] = b := by cases b <;> decide

/-- The bits of one lane mixed by the identity are the register's own. -/
theorem combSeq_identity_bits (s m k n : Nat) : (combSeq [⟨s, m, k⟩] ⟨1, 0b10⟩ n).1 = regSeq s m k n := by
  induction n generalizing k with
  | zero => rfl
  | succ n ih => exact congrArg₂ List.cons (apply_identity (outBit s k)) (ih (nextKey s m k))

/-- Settles O54: the bits are the register's by induction on the length, and the one lane has ticked `n` times. -/
theorem oneLaneIdentityIsTheRegisterSequence : Obligations.OneLaneIdentityIsTheRegisterSequence := fun s m k n =>
  Prod.ext (combSeq_identity_bits s m k n) ((combSeq_lanes _ _ n).trans (iterate_tickAll_eq_map _ n))

end Sys2Proof.Machine
end

section
/-! PROOFS. The commands of the Combinator family: the tests in their order, and the effect (41_combinator.md R170 to
R177). -/

namespace Sys2Proof.Machine

/-! ### The tests of the configuration (41_combinator.md R164) -/

section
variable {s : State} {f : MixFn}

theorem State.configured_of_missing (h : s.lanes = [] ∨ s.mix = none) : s.configured = .error .notConfigured := by
  obtain ⟨f, hlanes, hmix, -⟩ | ⟨-, hc⟩ := s.configured_cases
  · simp [hlanes, hmix] at h
  · exact hc

theorem State.configured_of_mix (hlanes : s.lanes ≠ []) (hmix : s.mix = some f) : s.configured = .ok f := by
  simp [State.configured, hlanes, hmix]

theorem State.applicable_of_missing (h : s.lanes = [] ∨ s.mix = none) : s.applicable = .error .notConfigured := by
  rw [State.applicable, State.configured_of_missing h]

theorem State.applicable_of_arity_ne (hlanes : s.lanes ≠ []) (hmix : s.mix = some f)
    (harity : f.arity ≠ s.lanes.length) : s.applicable = .error .arityMismatch := by
  rw [State.applicable, State.configured_of_mix hlanes hmix]
  exact if_neg harity

theorem State.applicable_of_arity (hlanes : s.lanes ≠ []) (hmix : s.mix = some f)
    (harity : f.arity = s.lanes.length) : s.applicable = .ok f := by
  rw [State.applicable, State.configured_of_mix hlanes hmix]
  exact if_pos harity

/-- The tests look at the number of lanes and the function alone. -/
theorem State.applicable_congr {t : State} (hlanes : t.lanes.length = s.lanes.length) (hmix : t.mix = s.mix) :
    t.applicable = s.applicable := by
  simp only [State.applicable, State.configured, State.count_eq, hlanes, hmix]

end

/-- A command that steps the lanes: the fault where its test of the configuration fails, and `g` of the mixing function
for what follows. -/
def State.withMixFn (s : State) (test : Except Cause MixFn) (g : MixFn → Result) : Result :=
  match test with
  | .error c => raise c s
  | .ok f => g f

section
variable {s : State} {test : Except Cause MixFn} {g : MixFn → Result}

theorem State.withMixFn_of_error {c : Cause} (h : test = .error c) : s.withMixFn test g = .next (s.faulted c) := by
  rw [h]
  rfl

theorem State.withMixFn_of_ok {f : MixFn} (h : test = .ok f) : s.withMixFn test g = g f := by
  rw [h]
  rfl

end

/-! ### The meanings by their tests -/

theorem exec_cadd (b : Nat) (s : State) :
    exec (.cadd b) s = s.withSource (s.NoRegister b ∨ s.count = s.params.nlane) b fun r =>
      respond (s.count + 1) 0 0 (s.setLanes (s.lanes ++ [r])) := rfl

theorem exec_cmix (s : State) :
    exec .cmix s =
      if s.params.nlane < s.x then raise .outOfRange s
      else if 2 ^ 2 ^ s.x ≤ s.y then raise .invalidConfig s
      else respond 0 0 0 (s.setMix ⟨s.x, s.y⟩) := rfl

theorem exec_ctick (s : State) :
    exec .ctick s = s.withMixFn s.configured fun _ => respond 0 0 0 (s.setLanes (tickAll s.lanes)) := rfl

theorem exec_cgenbit (s : State) :
    exec .cgenbit s = s.withMixFn s.applicable fun f =>
      respond (bitVal (f.apply (outBits s.lanes))) 0 0 (s.setLanes (tickAll s.lanes)) := rfl

/-- `CLANE` answers a lane in use, and enters the fault for one that is not. -/
theorem exec_clane (a : Nat) (s : State) :
    exec (.clane a) s = s.lanes[a]?.elim (raise .outOfRange s) fun r => respond r.key r.size r.mask s := by
  rw [exec, execClane]
  cases s.lanes[a]? <;> rfl

theorem exec_cgenseq (s : State) :
    exec .cgenseq s =
      if s.TooLong s.x then raise .outOfRange s
      else if s.x = 0 then respond 0 0 0 (s.setSeq [])
      else s.withMixFn s.applicable fun f =>
        respond (seqVal (combSeq s.lanes f s.x).1) (combSeq s.lanes f s.x).1.length 0
          ((s.setLanes (combSeq s.lanes f s.x).2).setSeq (combSeq s.lanes f s.x).1) := rfl

theorem exec_cgenseq_of_tooLong {s : State} (hlong : s.params.lmax < s.port.x) :
    exec .cgenseq s = .next (s.faulted .outOfRange) := by
  rw [exec_cgenseq, if_pos hlong, raise_eq]

theorem exec_cgenseq_of_zero {s : State} (hzero : s.port.x = 0) :
    exec .cgenseq s = .next ((s.setSeq []).answered 0 0 0) := by
  rw [exec_cgenseq, if_neg (not_lt.mpr (hzero.trans_le (Nat.zero_le _))), if_pos hzero, respond_eq]

theorem exec_cgenseq_of_error {s : State} {c : Cause} (hmax : s.port.x ≤ s.params.lmax) (hpos : 1 ≤ s.port.x)
    (htest : s.applicable = .error c) : exec .cgenseq s = .next (s.faulted c) := by
  rw [exec_cgenseq, if_neg (not_lt.mpr hmax), if_neg (Nat.ne_of_gt hpos), State.withMixFn_of_error htest]

/-- With an applicable function `CGENSEQ` is `CombSeq` at every length: the empty sequence of length 0 too. -/
theorem exec_cgenseq_of_applicable {s : State} {f : MixFn} (hmax : s.port.x ≤ s.params.lmax)
    (htest : s.applicable = .ok f) :
    exec .cgenseq s = .next
      { s with
        lanes := (combSeq s.lanes f s.port.x).2
        seq := some (combSeq s.lanes f s.port.x).1
        resp := some ⟨0, seqVal (combSeq s.lanes f s.port.x).1, s.port.x, 0⟩ } := by
  by_cases hzero : s.port.x = 0
  · rw [exec_cgenseq_of_zero hzero, hzero]
    rfl
  · rw [exec_cgenseq, if_neg (not_lt.mpr hmax), if_neg hzero, State.withMixFn_of_ok htest, combSeq_length]
    rfl

/-! ### The effect of each command -/

/-- Settles O31: `CCLR` has no test, and `CMIX` tests the arity, then the table. -/
theorem cclrAndCmixConfigure : Obligations.CclrAndCmixConfigure := by
  refine ⟨encode_eq_ofNat .cclr, encode_eq_ofNat .cmix, fun s => ⟨rfl, ?_⟩⟩
  rw [exec_cmix]
  refine ⟨fun harity => if_pos harity, fun harity htable => ?_, fun harity htable => ?_⟩
  · exact (if_neg (not_lt.mpr harity)).trans (if_pos htable)
  · exact (if_neg (not_lt.mpr harity)).trans (if_neg (not_le.mpr htable))

/-- Settles O32: the source's tests with the room for a lane, and behind them the copy. -/
theorem caddAppendsACopy : Obligations.CaddAppendsACopy := by
  intro b s
  have hin (hb : b < s.params.nr) (hroom : s.lanes.length ≠ s.params.nlane) :
      ¬ (s.NoRegister b ∨ s.count = s.params.nlane) := not_or.mpr ⟨not_le.mpr hb, hroom⟩
  rw [exec_cadd]
  exact ⟨encode_eq_ofNat (.cadd b), State.withSource_of_out, fun hb hroom => State.withSource_of_none (hin hb hroom),
    fun r hb hroom => State.withSource_of_some (hin hb hroom)⟩

/-- Bit `i` of the packed output bits is that of lane `i`. -/
theorem testBit_packBits_outBits (lanes : List Reg) (i : Nat) :
    (packBits (outBits lanes)).testBit i = (lanes[i]?.map fun r => outBit r.size r.key).getD false := by
  rw [testBit_packBits, List.getD_eq_getElem?_getD, outBits, List.getElem?_map]

/-- Settles O33: the packing bit by bit, and one lane read. -/
theorem coutsAndClaneReadTheLanes : Obligations.CoutsAndClaneReadTheLanes := by
  refine ⟨encode_eq_ofNat .couts, fun s => ⟨packBits (outBits s.lanes), rfl, fun i => ?_⟩, fun a s => ?_⟩
  · rw [testBit_packBits_outBits]
    cases s.lanes[i]? <;> rfl
  · rw [exec_clane]
    refine ⟨encode_eq_ofNat (.clane a), fun ha => ?_, fun r hr => ?_⟩
    · rw [List.getElem?_eq_none ha]
      rfl
    · rw [hr]
      rfl

/-- Settles O34: the one test, and behind it the tick of every lane. -/
theorem ctickStepsEveryLane : Obligations.CtickStepsEveryLane := by
  refine ⟨encode_eq_ofNat .ctick, fun s => ?_⟩
  rw [exec_ctick]
  exact ⟨fun h => State.withMixFn_of_error (State.configured_of_missing h),
    fun f hlanes hmix => State.withMixFn_of_ok (State.configured_of_mix hlanes hmix)⟩

/-- Settles O35: the two tests, and behind them the mixed bit and the tick of every lane. -/
theorem cgenbitMixesThenTicks : Obligations.CgenbitMixesThenTicks := by
  refine ⟨encode_eq_ofNat .cgenbit, fun s => ?_⟩
  rw [exec_cgenbit]
  exact ⟨fun h => State.withMixFn_of_error (State.applicable_of_missing h),
    fun f hlanes hmix harity => State.withMixFn_of_error (State.applicable_of_arity_ne hlanes hmix harity),
    fun f hlanes hmix harity => State.withMixFn_of_ok (State.applicable_of_arity hlanes hmix harity)⟩

/-- Settles O36: the length's test, the length 0, then the two tests of the configuration. -/
theorem cgenseqFillsTheSequenceBuffer : Obligations.CgenseqFillsTheSequenceBuffer :=
  ⟨encode_eq_ofNat .cgenseq, fun _ => ⟨exec_cgenseq_of_tooLong, exec_cgenseq_of_zero,
    fun hmax hpos h => exec_cgenseq_of_error hmax hpos (State.applicable_of_missing h),
    fun _ hmax hpos hlanes hmix harity =>
      exec_cgenseq_of_error hmax hpos (State.applicable_of_arity_ne hlanes hmix harity),
    fun _ hmax _ hlanes hmix harity =>
      exec_cgenseq_of_applicable hmax (State.applicable_of_arity hlanes hmix harity)⟩⟩

/-! ### The lanes a command leaves (10_state.md R30) -/

/-- A fault leaves the lanes as they are, so a command that steps them is judged by what follows its tests. -/
theorem State.withMixFn_lanes {s t : State} {test : Except Cause MixFn} {g : MixFn → Result}
    (hg : ∀ f u, g f = .next u → ∃ n, u.lanes = tickAll^[n] s.lanes) (h : s.withMixFn test g = .next t) :
    ∃ n, t.lanes = tickAll^[n] s.lanes := by
  cases test with
  | error c =>
    cases h
    exact ⟨0, rfl⟩
  | ok f => exact hg f t h

/-- A stepping command leaves the lanes ticked: not at all by a fault, once by `CTICK` and `CGENBIT`, as many times as
there are bits by `CGENSEQ`. -/
theorem exec_lanes_of_stepping {i : Instr} {s t : State} (hi : i = .ctick ∨ i = .cgenbit ∨ i = .cgenseq)
    (hexec : exec i s = .next t) : ∃ n, t.lanes = tickAll^[n] s.lanes := by
  obtain rfl | rfl | rfl := hi
  · rw [exec_ctick] at hexec
    refine State.withMixFn_lanes (fun f u hu => ⟨1, ?_⟩) hexec
    cases hu
    rfl
  · rw [exec_cgenbit] at hexec
    refine State.withMixFn_lanes (fun f u hu => ⟨1, ?_⟩) hexec
    cases hu
    rfl
  · rw [exec_cgenseq] at hexec
    split_ifs at hexec
    · cases hexec
      exact ⟨0, rfl⟩
    · cases hexec
      exact ⟨0, rfl⟩
    · refine State.withMixFn_lanes (fun f u hu => ⟨s.x, ?_⟩) hexec
      cases hu
      exact combSeq_lanes s.lanes f s.x

/-- A command that reads `L[b]` enters a fault, or does what follows its tests. -/
theorem State.withSource_next {s t : State} {out : Prop} [Decidable out] {b : Nat} {f : Reg → Result}
    (h : s.withSource out b f = .next t) : (∃ c, t = s.faulted c) ∨ ∃ r, f r = .next t := by
  by_cases hout : out
  · rw [State.withSource_of_out hout] at h
    exact .inl ⟨_, (Host.Outcome.next.inj h).symm⟩
  cases hb : s.reg b with
  | none =>
    rw [State.withSource_of_none hout hb] at h
    exact .inl ⟨_, (Host.Outcome.next.inj h).symm⟩
  | some r =>
    rw [State.withSource_of_some hout hb] at h
    exact .inr ⟨r, h⟩

theorem exec_cadd_lanes {b : Nat} {s t : State} (hexec : exec (.cadd b) s = .next t) :
    ∃ new, t.lanes = s.lanes ++ new := by
  rw [exec_cadd] at hexec
  obtain ⟨c, rfl⟩ | ⟨r, ⟨⟩⟩ := State.withSource_next hexec
  · exact ⟨[], (List.append_nil _).symm⟩
  · exact ⟨[r], rfl⟩

/-- Settles O21: the stepping commands leave the lanes ticked, and `CADD` leaves an extension of them. -/
theorem lanesKeepTheirSizeAndMask : Obligations.LanesKeepTheirSizeAndMask := by
  intro i s t hexec
  constructor
  · intro hi
    obtain ⟨n, hn⟩ := exec_lanes_of_stepping hi hexec
    rw [hn, iterate_tickAll_sizes_masks]
  · rintro b rfl
    obtain ⟨new, hnew⟩ := exec_cadd_lanes hexec
    rw [hnew, List.take_left]

/-! ### `CGENSEQ` as repeated `CGENBIT` (41_combinator.md R176) -/

theorem decide_bitVal_eq_one (b : Bool) : decide (bitVal b = 1) = b := by cases b <;> rfl

/-- A bit that a `CGENBIT` answers goes before those of the following ones. -/
theorem genBits_succ {s u : State} {b : Bool} (h : exec .cgenbit s = respond (bitVal b) 0 0 u) (n : Nat) :
    genBits (n + 1) s = (genBits n (u.answered (bitVal b) 0 0)).map fun p => (b :: p.1, p.2) := by
  simp [genBits, h, respond_eq, decide_bitVal_eq_one]

/-- A tick leaves a function applicable. -/
theorem State.applicable_tickAll (s : State) (r0 r1 r2 : Nat) :
    ((s.setLanes (tickAll s.lanes)).answered r0 r1 r2).applicable = s.applicable :=
  State.applicable_congr (tickAll_length s.lanes) rfl

/-- Repeated `CGENBIT`s answer the bits of `CombSeq` and leave its lanes; the last one's response stands. -/
theorem genBits_eq_combSeq {s : State} {f : MixFn} (htest : s.applicable = .ok f) (n : Nat) :
    ∃ r, genBits n s = some ((combSeq s.lanes f n).1, { s with lanes := (combSeq s.lanes f n).2, resp := r }) := by
  induction n generalizing s with
  | zero => exact ⟨s.resp, rfl⟩
  | succ n ih =>
    have hbit := (exec_cgenbit s).trans (State.withMixFn_of_ok htest)
    obtain ⟨r, hr⟩ := ih ((s.applicable_tickAll _ 0 0).trans htest)
    exact ⟨r, by rw [genBits_succ hbit, hr]; rfl⟩

/-- Settles O55: both make `CombSeq` of the lanes. -/
theorem cgenseqIsRepeatedCgenbit : Obligations.CgenseqIsRepeatedCgenbit := by
  intro s f hlanes hmix harity hmax
  have htest := State.applicable_of_arity hlanes hmix harity
  obtain ⟨r, hbits⟩ := genBits_eq_combSeq htest s.port.x
  exact ⟨_, _, _, exec_cgenseq_of_applicable hmax htest, hbits, rfl, rfl, rfl, rfl⟩

end Sys2Proof.Machine
end

section
/-! PROOFS. The Hamming distance and equality of bit sequences (42_comparator.md R200, R201, R220). -/

namespace Sys2Proof.Machine

/-! ### The distance as a count -/

@[simp] theorem hamming_nil_left (q : BitSeq) : hamming [] q = 0 := rfl

theorem hamming_cons (b c : Bool) (p q : BitSeq) : hamming (b :: p) (c :: q) = hamming p q + if b != c then 1 else 0 :=
  List.countP_cons

/-- The distance counts the positions that differ (42_comparator.md R200). -/
theorem hamming_eq_countP_getElem? {p q : BitSeq} (hlen : p.length = q.length) :
    hamming p q = (List.range p.length).countP fun j => decide (p[j]? ≠ q[j]?) := by
  induction p generalizing q with
  | nil => rfl
  | cons b p ih =>
    cases q with
    | nil => simp at hlen
    | cons c q =>
      rw [hamming_cons, ih (Nat.succ.inj hlen), List.length_cons, List.range_succ_eq_map, List.countP_cons,
        List.countP_map]
      simp [Function.comp_def, bne_iff_ne]

/-- The distance of the sequences of two values is the population count of their exclusive-or: the bits that `SeqOf`
reads at one position stand at one bit of the values. -/
theorem hamming_seqOf (n v w : Nat) :
    hamming (seqOf n v) (seqOf n w) = (List.range n).countP fun j => (v ^^^ w).testBit j := by
  induction n with
  | zero => rfl
  | succ n ih =>
    rw [seqOf_succ, seqOf_succ, hamming_cons, ih, List.range_succ, List.countP_append, List.countP_singleton,
      Nat.testBit_xor, Bool.bne_eq_xor]

theorem hamming_eq_countP_testBit {p q : BitSeq} (hlen : p.length = q.length) :
    hamming p q = (List.range p.length).countP fun j => (seqVal p ^^^ seqVal q).testBit j := by
  rw [← hamming_seqOf, seqOf_seqVal, hlen, seqOf_seqVal]

/-! ### The metric of the library -/

/-- The bits of a sequence at its first `n` positions, as a family for `hammingDist`. -/
def bitsAt (n : Nat) (p : BitSeq) : Fin n → Option Bool := fun j => p[(j : Nat)]?

theorem bitsAt_inj {n : Nat} {p q : BitSeq} (hp : p.length = n) (hq : q.length = n) :
    bitsAt n p = bitsAt n q ↔ p = q := by
  refine ⟨fun h => List.ext_getElem? fun j => ?_, fun h => h ▸ rfl⟩
  by_cases hj : j < n
  · exact congrFun h ⟨j, hj⟩
  · rw [List.getElem?_eq_none (by omega), List.getElem?_eq_none (by omega)]

/-- On the sequences of one length the distance is the library's. -/
theorem hamming_eq_hammingDist {n : Nat} {p q : BitSeq} (hp : p.length = n) (hq : q.length = n) :
    hamming p q = hammingDist (bitsAt n p) (bitsAt n q) := by
  calc hamming p q
      = ((Finset.range n).filter fun j => p[j]? ≠ q[j]?).card := by
        rw [hamming_eq_countP_getElem? (hp.trans hq.symm), hp, List.countP_eq_length_filter]
        rfl
    _ = ∑ j : Fin n, if bitsAt n p j ≠ bitsAt n q j then 1 else 0 := by
        rw [Finset.card_filter, Finset.sum_range]
        rfl
    _ = hammingDist (bitsAt n p) (bitsAt n q) := (Finset.card_filter _ _).symm

theorem hamming_eq_zero_iff {p q : BitSeq} (hlen : p.length = q.length) : hamming p q = 0 ↔ p = q := by
  rw [hamming_eq_hammingDist hlen rfl, hammingDist_eq_zero, bitsAt_inj hlen rfl]

theorem hamming_comm {p q : BitSeq} (hlen : p.length = q.length) : hamming p q = hamming q p := by
  rw [hamming_eq_hammingDist hlen rfl, hamming_eq_hammingDist rfl hlen, hammingDist_comm]

theorem hamming_triangle {p q r : BitSeq} (hq : p.length = q.length) (hr : r.length = p.length) :
    hamming p r ≤ hamming p q + hamming q r := by
  rw [hamming_eq_hammingDist rfl hr, hamming_eq_hammingDist rfl hq.symm, hamming_eq_hammingDist hq.symm hr]
  exact hammingDist_triangle _ _ _

/-! ### `SeqEq` (42_comparator.md R201) -/

theorem seqEq_iff (p q : BitSeq) : seqEq p q = true ↔ p = q := beq_iff_eq

/-- Among the sequences of one length equality is equality of the values. -/
theorem seqVal_eq_iff {p q : BitSeq} (hlen : p.length = q.length) : seqVal p = seqVal q ↔ p = q :=
  ⟨seqVal_inj hlen, congrArg seqVal⟩

/-- Settles O51: the two counts, and what a metric has to be from the library's Hamming distance. -/
theorem hammingIsAMetric : Obligations.HammingIsAMetric := by
  intro p q hlen
  rw [← List.countP_eq_length_filter, ← List.countP_eq_length_filter, seqEq_iff, hamming_eq_zero_iff hlen,
    seqVal_eq_iff hlen]
  exact ⟨hamming_eq_countP_getElem? hlen, hamming_eq_countP_testBit hlen, hamming_le p q, Iff.rfl, Iff.rfl, Iff.rfl,
    hamming_comm hlen, fun r hr => hamming_triangle hlen hr⟩

end Sys2Proof.Machine
end

section
/-! PROOFS. The commands of the Comparator family: the tests in their order, and the effect (42_comparator.md R210 to
R215). -/

namespace Sys2Proof.Machine

/-! ### The meanings by their tests -/

theorem exec_ksld (s : State) :
    exec .ksld s =
      if s.TooLong s.x then raise .outOfRange s
      else if 2 ^ s.x ≤ s.y then raise .invalidConfig s
      else respond 0 0 0 (s.setKs (seqOf s.x s.y)) := rfl

/-- A command that reads one buffer: `NotLoaded` where it is not valid, and `f` of its sequence for what follows. -/
def State.withBuffer (s : State) (buf : Option BitSeq) (f : BitSeq → Result) : Result :=
  match buf with
  | none => raise .notLoaded s
  | some q => f q

section
variable {s : State} {buf : Option BitSeq} {f : BitSeq → Result}

theorem State.withBuffer_of_none (h : buf = none) : s.withBuffer buf f = .next (s.faulted .notLoaded) := by
  rw [h]
  rfl

theorem State.withBuffer_of_some {q : BitSeq} (h : buf = some q) : s.withBuffer buf f = f q := by
  rw [h]
  rfl

end

theorem exec_ksseq (s : State) : exec .ksseq s = s.withBuffer s.seq fun q => respond 0 q.length 0 (s.setKs q) := rfl

theorem exec_ksrd (s : State) : exec .ksrd s = s.withBuffer s.ks fun k => respond (seqVal k) k.length 0 s := rfl

theorem exec_seqrd (s : State) : exec .seqrd s = s.withBuffer s.seq fun q => respond (seqVal q) q.length 0 s := rfl

/-! ### The tests before a comparison (42_comparator.md R214, R215) -/

section
variable {s : State} {q k : BitSeq}

theorem State.comparable_of_missing (h : s.seq = none ∨ s.ks = none) : s.comparable = .error .notLoaded := by
  obtain ⟨q, k, hq, hk, -, -⟩ | ⟨-, hc⟩ | ⟨q, k, hq, hk, -, -⟩ := s.comparable_cases
  · simp [hq, hk] at h
  · exact hc
  · simp [hq, hk] at h

theorem State.comparable_of_length_ne (hq : s.seq = some q) (hk : s.ks = some k) (hlen : q.length ≠ k.length) :
    s.comparable = .error .lengthMismatch := by
  rw [State.comparable, hq, hk]
  exact if_neg hlen

theorem State.comparable_of_length (hq : s.seq = some q) (hk : s.ks = some k) (hlen : q.length = k.length) :
    s.comparable = .ok (q, k) := by
  rw [State.comparable, hq, hk]
  exact if_pos hlen

/-- Both comparing commands make the same tests. -/
theorem exec_of_not_comparable {i : Instr} {c : Cause} (hi : i ∈ [Instr.hamm, .equ]) (h : s.comparable = .error c) :
    exec i s = .next (s.faulted c) := by
  simp only [List.mem_cons, List.not_mem_nil, or_false] at hi
  obtain rfl | rfl := hi
  · rw [exec, execHamm, h]
    rfl
  · rw [exec, execEqu, h]
    rfl

theorem exec_hamm_of_comparable (h : s.comparable = .ok (q, k)) :
    exec .hamm s = respond (hamming q k) q.length 0 s := by
  rw [exec, execHamm, h]

theorem exec_equ_of_comparable (h : s.comparable = .ok (q, k)) : exec .equ s = respond (bitVal (seqEq q k)) 0 0 s := by
  rw [exec, execEqu, h]

end

theorem bitVal_seqEq (q k : BitSeq) : bitVal (seqEq q k) = if q = k then 1 else 0 := by
  rw [bitVal]
  exact if_congr (seqEq_iff q k) rfl rfl

/-! ### The effect of each command -/

/-- Bit `j` of `SeqOf` is bit `len - 1 - j` of the value (00_scope.md R8). -/
theorem seqOf_getElem? {len j : Nat} (v : Nat) (hj : j < len) : (seqOf len v)[j]? = some (v.testBit (len - 1 - j)) := by
  rw [seqOf, List.getElem?_map, List.getElem?_range hj, Option.map_some]

/-- Settles O37: the length's test, the value's test, and behind them `SeqOf` of the operands. -/
theorem ksldLoadsTheKeystream : Obligations.KsldLoadsTheKeystream := by
  refine ⟨encode_eq_ofNat .ksld, fun s => ?_⟩
  rw [exec_ksld]
  refine ⟨fun hlong => if_pos hlong, fun hmax hbig => ?_, fun hmax hfits => ⟨seqOf s.port.x s.port.y, ?_,
    seqOf_length _ _, fun j => seqOf_getElem? s.port.y⟩⟩
  · exact (if_neg (not_lt.mpr hmax)).trans (if_pos hbig)
  · exact (if_neg (not_lt.mpr hmax)).trans (if_neg (not_le.mpr hfits))

/-- Settles O38: the one test, and behind it the copy. -/
theorem ksseqCopiesTheSequence : Obligations.KsseqCopiesTheSequence := by
  refine ⟨encode_eq_ofNat .ksseq, fun s => ?_⟩
  rw [exec_ksseq]
  exact ⟨State.withBuffer_of_none, fun q => State.withBuffer_of_some⟩

/-- Settles O39: each command tests the buffer that it reads. -/
theorem bufferReadsAnswer : Obligations.BufferReadsAnswer := by
  refine ⟨encode_eq_ofNat .ksrd, encode_eq_ofNat .seqrd, fun s => ?_⟩
  rw [exec_ksrd, exec_seqrd]
  exact ⟨State.withBuffer_of_none, fun k => State.withBuffer_of_some, State.withBuffer_of_none,
    fun q => State.withBuffer_of_some⟩

/-- Settles O40: the shared tests, and the answer of each command behind them. -/
theorem comparatorAnswers : Obligations.ComparatorAnswers := by
  refine ⟨encode_eq_ofNat .hamm, encode_eq_ofNat .equ, fun s => ⟨fun i hi => ⟨fun h => ?_, ?_⟩, ?_⟩⟩
  · exact exec_of_not_comparable hi (State.comparable_of_missing h)
  · exact fun q k hq hk hlen => exec_of_not_comparable hi (State.comparable_of_length_ne hq hk hlen)
  · intro q k hq hk hlen
    have htest := State.comparable_of_length hq hk hlen
    rw [exec_hamm_of_comparable htest, exec_equ_of_comparable htest, bitVal_seqEq]
    exact ⟨rfl, rfl⟩

end Sys2Proof.Machine
end

section
/-! PROOFS. The two key searches as functions: the smallest nearest key and the smallest reproducing key (43_search.md
R231, R235). -/

namespace Sys2Proof.Machine

/-! ### The nearest key (43_search.md R231) -/

/-- `best` is the smallest of the nearest keys among `1, ..., n`, with its distance: what `GuessKey`'s loop keeps. -/
structure Nearest (s m : Nat) (ks : BitSeq) (n : Nat) (best : Nat × Nat) : Prop where
  one_le : 1 ≤ best.1
  key_le : best.1 ≤ n
  dist_eq : best.2 = keyDistance s m ks best.1
  dist_le : ∀ k, 1 ≤ k → k ≤ n → best.2 ≤ keyDistance s m ks k
  dist_lt : ∀ k, 1 ≤ k → k < best.1 → best.2 < keyDistance s m ks k

section
variable {s m : Nat} {ks : BitSeq} {n : Nat} {best : Nat × Nat}

/-- Before the loop: key 1 among itself. -/
theorem nearest_one : Nearest s m ks 1 (1, keyDistance s m ks 1) where
  one_le := le_rfl
  key_le := le_rfl
  dist_eq := rfl
  dist_le k h1 hn := by rw [le_antisymm hn h1]
  dist_lt _ h1 hlt := absurd hlt (not_lt.mpr h1)

/-- A pass with the next key takes it exactly when it is strictly nearer than all before it. -/
theorem Nearest.step (h : Nearest s m ks n best) : Nearest s m ks (n + 1) (guessStep s m ks best (n + 1)) := by
  rw [guessStep]
  split_ifs with hnearer
  · have hbefore : ∀ k, 1 ≤ k → k ≤ n → keyDistance s m ks (n + 1) < keyDistance s m ks k :=
      fun k h1 hn => hnearer.trans_le (h.dist_le k h1 hn)
    refine ⟨Nat.le_add_left 1 n, le_rfl, rfl, fun k h1 hn => ?_, fun k h1 hlt => hbefore k h1 (Nat.le_of_lt_succ hlt)⟩
    obtain hk | rfl := Nat.le_succ_iff.mp hn
    · exact (hbefore k h1 hk).le
    · exact le_rfl
  · refine ⟨h.one_le, Nat.le_succ_of_le h.key_le, h.dist_eq, fun k h1 hn => ?_, h.dist_lt⟩
    obtain hk | rfl := Nat.le_succ_iff.mp hn
    · exact h.dist_le k h1 hk
    · exact not_lt.mp hnearer

/-- The loop over the `j` keys after `n`. -/
theorem Nearest.foldl (h : Nearest s m ks n best) (j : Nat) :
    Nearest s m ks (n + j) ((List.range' (n + 1) j).foldl (guessStep s m ks) best) := by
  induction j generalizing n best with
  | zero => exact h
  | succ j ih =>
    rw [List.range'_succ, List.foldl_cons, Nat.add_comm j, ← Nat.add_assoc]
    exact ih h.step

theorem guessKey_nearest (hs : 1 ≤ s) (m : Nat) (ks : BitSeq) : Nearest s m ks (2 ^ s - 1) (guessKey s m ks) := by
  have hpow : 1 < 2 ^ s := Nat.one_lt_two_pow (Nat.ne_of_gt hs)
  have hcount : 2 ^ s - 1 = 1 + (2 ^ s - 1 - 1) := by omega
  rw [guessKey, allKeys, largestKey, List.tail_range', hcount, Nat.add_sub_cancel_left]
  exact nearest_one.foldl _

end

/-! ### The least reproducing key (43_search.md R235) -/

section
variable {s m : Nat} {ks : BitSeq} {builder : Reg → List Reg × MixFn}

theorem bruteForceKey_eq_some_iff {k : Nat} :
    bruteForceKey s m ks builder = some k ↔
      1 ≤ k ∧ k ≤ 2 ^ s - 1 ∧ (combSeq (builder ⟨s, m, k⟩).1 (builder ⟨s, m, k⟩).2 ks.length).1 = ks ∧
        ∀ k', 1 ≤ k' → k' < k → (combSeq (builder ⟨s, m, k'⟩).1 (builder ⟨s, m, k'⟩).2 ks.length).1 ≠ ks := by
  rw [bruteForceKey, allKeys, List.find?_range'_eq_some, ← largestKey, ← allKeys, mem_allKeys]
  simp only [Bool.not_eq_true', ← Bool.not_eq_true, seqEq_iff]
  rw [and_left_comm, and_assoc]
  exact Iff.rfl

theorem bruteForceKey_eq_none_iff :
    bruteForceKey s m ks builder = none ↔
      ∀ k, 1 ≤ k → k ≤ 2 ^ s - 1 →
        (combSeq (builder ⟨s, m, k⟩).1 (builder ⟨s, m, k⟩).2 ks.length).1 ≠ ks := by
  simp only [bruteForceKey, List.find?_eq_none, mem_allKeys, seqEq_iff, and_imp, ne_eq]

/-- A search among whose keys one reproduces the keystream finds a key no greater. -/
theorem exists_bruteForceKey_eq_some {k0 : Nat} (h1 : 1 ≤ k0) (hmax : k0 ≤ 2 ^ s - 1)
    (h0 : (combSeq (builder ⟨s, m, k0⟩).1 (builder ⟨s, m, k0⟩).2 ks.length).1 = ks) :
    ∃ k, bruteForceKey s m ks builder = some k ∧ k ≤ k0 := by
  cases hfound : bruteForceKey s m ks builder with
  | none => exact absurd h0 (bruteForceKey_eq_none_iff.mp hfound k0 h1 hmax)
  | some k =>
    obtain ⟨-, -, -, hleast⟩ := bruteForceKey_eq_some_iff.mp hfound
    exact ⟨k, rfl, not_lt.mp fun hlt => hleast k0 h1 hlt h0⟩

end

/-- Settles O56: the first of the ascending keys is the least. -/
theorem bruteForceFindsTheLeastKey : Obligations.BruteForceFindsTheLeastKey :=
  fun _ _ _ _ => ⟨fun _ => bruteForceKey_eq_some_iff, bruteForceKey_eq_none_iff⟩

end Sys2Proof.Machine
end

section
/-! PROOFS. The commands of the Search family: the tests in their order, the answers, and what they do not depend on
(43_search.md R232, R236, R237, R239). -/

namespace Sys2Proof.Machine

/-! ### The meanings by their tests -/

/-- The tests that both searches make: `OutOfRange` for a register that does not exist, then `NotLoaded` where it or
`KS` is invalid, and `f` of the triple and the keystream for what follows. -/
def State.withSearched (s : State) (b : Nat) (f : Reg → BitSeq → Result) : Result :=
  s.withSource (s.NoRegister b) b fun r => s.withBuffer s.ks (f r)

section
variable {s : State} {b : Nat} {f : Reg → BitSeq → Result}

theorem State.withSearched_of_noRegister (hb : s.params.nr ≤ b) :
    s.withSearched b f = .next (s.faulted .outOfRange) := State.withSource_of_out hb

theorem State.withSearched_of_missing (hb : b < s.params.nr) (h : s.reg b = none ∨ s.ks = none) :
    s.withSearched b f = .next (s.faulted .notLoaded) := by
  cases hr : s.reg b with
  | none => exact State.withSource_of_none (not_le.mpr hb) hr
  | some r =>
    have hks : s.ks = none := h.resolve_left (by simp [hr])
    exact (State.withSource_of_some (not_le.mpr hb) hr).trans (State.withBuffer_of_none hks)

theorem State.withSearched_of_loaded {r : Reg} {ks : BitSeq} (hb : b < s.params.nr) (hr : s.reg b = some r)
    (hks : s.ks = some ks) : s.withSearched b f = f r ks :=
  (State.withSource_of_some (not_le.mpr hb) hr).trans (State.withBuffer_of_some hks)

end

/-- The response to a search that can fail: the key and 1, or 0 and 0 (43_search.md R237). -/
def State.answerFound (s : State) : Option Nat → Result
  | some key => respond key 1 0 s
  | none => respond 0 0 0 s

theorem exec_guess (b : Nat) (s : State) :
    exec (.guess b) s = s.withSearched b fun r ks =>
      respond (guessKey r.size r.mask ks).1 (guessKey r.size r.mask ks).2 0 s := by
  rw [exec, execGuess, State.withSearched, State.withSource]
  cases s.reg b with
  | none => rfl
  | some r => cases s.ks <;> rfl

/-- What `BRUTE` does behind the tests of the register and the keystream: the tests of the configuration, then that of
the lane, and the search. -/
def State.bruteLane (s : State) (a : Nat) (r : Reg) (ks : BitSeq) : Result :=
  s.withMixFn s.applicable fun f =>
    if s.NoLane a then raise .outOfRange s
    else s.answerFound (bruteForceKey r.size r.mask ks (substituteLane s.lanes f a))

theorem exec_brute (a b : Nat) (s : State) :
    exec (.brute a b) s = s.withSearched b (s.bruteLane a) := by
  rw [exec, execBrute, State.withSearched, State.withSource]
  cases s.reg b with
  | none => rfl
  | some r => cases s.ks <;> rfl

section
variable {a : Nat} {s : State} {r : Reg} {ks : BitSeq} {f : MixFn}

theorem State.bruteLane_of_error {c : Cause} (htest : s.applicable = .error c) :
    s.bruteLane a r ks = .next (s.faulted c) := State.withMixFn_of_error htest

theorem State.bruteLane_of_noLane (htest : s.applicable = .ok f) (ha : s.lanes.length ≤ a) :
    s.bruteLane a r ks = .next (s.faulted .outOfRange) := (State.withMixFn_of_ok htest).trans (if_pos ha)

theorem State.bruteLane_of_lane (hmix : s.mix = some f) (harity : f.arity = s.lanes.length)
    (ha : a < s.lanes.length) :
    s.bruteLane a r ks = s.answerFound (bruteForceKey r.size r.mask ks (substituteLane s.lanes f a)) := by
  have hlanes : s.lanes ≠ [] := List.ne_nil_of_length_pos (Nat.zero_lt_of_lt ha)
  exact (State.withMixFn_of_ok (State.applicable_of_arity hlanes hmix harity)).trans (if_neg (not_le.mpr ha))

end

/-! ### The effect of each command -/

/-- Settles O41: the shared tests, and behind them the nearest key. -/
theorem guessAnswersTheSmallestNearestKey : Obligations.GuessAnswersTheSmallestNearestKey := by
  intro b s
  rw [exec_guess]
  refine ⟨encode_eq_ofNat (.guess b), State.withSearched_of_noRegister, State.withSearched_of_missing, ?_⟩
  intro r ks hb hr hsize hks
  have h := guessKey_nearest hsize r.mask ks
  exact ⟨_, _, State.withSearched_of_loaded hb hr hks, h.one_le, h.key_le, h.dist_eq, h.dist_le, h.dist_lt⟩

/-- Settles O42: the shared tests, those of the configuration, that of the lane, and behind them the search. -/
theorem bruteAnswersTheSearch : Obligations.BruteAnswersTheSearch := by
  intro a b s
  rw [exec_brute]
  refine ⟨encode_eq_ofNat (.brute a b), State.withSearched_of_noRegister, State.withSearched_of_missing,
    ?_, ?_, ?_, ?_⟩
  · intro r ks hb hr hks h
    exact (State.withSearched_of_loaded hb hr hks).trans (State.bruteLane_of_error (State.applicable_of_missing h))
  · intro r ks f hb hr hks hlanes hmix harity
    exact (State.withSearched_of_loaded hb hr hks).trans
      (State.bruteLane_of_error (State.applicable_of_arity_ne hlanes hmix harity))
  · intro r ks f hb hr hks hlanes hmix harity ha
    exact (State.withSearched_of_loaded hb hr hks).trans
      (State.bruteLane_of_noLane (State.applicable_of_arity hlanes hmix harity) ha)
  · intro r ks f hb hr hks hmix harity ha
    rw [State.withSearched_of_loaded hb hr hks, State.bruteLane_of_lane hmix harity ha]
    change s.answerFound (bruteForceKey r.size r.mask ks fun c => (s.lanes.set a c, f)) = _
    cases bruteForceKey r.size r.mask ks fun c => (s.lanes.set a c, f) <;> rfl

/-- Settles O57: key `k0` reproduces the keystream, so the search finds a key no greater, and the key found is the
least. -/
theorem bruteRecoversAReproducingKey : Obligations.BruteRecoversAReproducingKey := by
  intro a b n k0 s r f hb hr hmix harity ha h1 hmax hks
  obtain ⟨k, hfound, hle⟩ := exists_bruteForceKey_eq_some (m := r.mask) (builder := substituteLane s.lanes f a)
    (ks := (combSeq (s.lanes.set a ⟨r.size, r.mask, k0⟩) f n).1) h1 hmax (by rw [combSeq_length]; rfl)
  obtain ⟨hpos, -, hrepr, -⟩ := bruteForceKey_eq_some_iff.mp hfound
  rw [combSeq_length] at hrepr
  refine ⟨k, ?_, hpos, hle, hrepr, fun hnone => ?_⟩
  · rw [exec_brute, State.withSearched_of_loaded hb hr hks, State.bruteLane_of_lane hmix harity ha, hfound]
    rfl
  · exact le_antisymm hle (not_lt.mp fun hlt => hnone k hpos hlt hrepr)

/-! ### What the searches do not read (43_search.md R232, R236, R237) -/

/-- Two commands that end with the same response, each in a state of its own. -/
def SameResponse (res res' : Result) : Prop := ∃ t u, res = .next t ∧ res' = .next u ∧ u.resp = t.resp

namespace SameResponse
variable {s s' : State}

theorem answers {r0 r1 r2 : Nat} : SameResponse (respond r0 r1 r2 s) (respond r0 r1 r2 s') := ⟨_, _, rfl, rfl, rfl⟩

theorem raises {c : Cause} : SameResponse (raise c s) (raise c s') := ⟨_, _, rfl, rfl, rfl⟩

theorem exists_next {t : State} {res res' : Result} (h : SameResponse res res') (hres : res = .next t) :
    ∃ u, res' = .next u ∧ u.resp = t.resp := by
  obtain ⟨t', u, ht', hu, hresp⟩ := h
  obtain rfl : t' = t := Host.Outcome.next.inj (ht'.symm.trans hres)
  exact ⟨u, hu, hresp⟩

/-- Results that agree in both branches of a test agree. -/
theorem ite {p : Prop} [Decidable p] {x x' y y' : Result} (hx : SameResponse x x') (hy : SameResponse y y') :
    SameResponse (if p then x else y) (if p then x' else y') := by
  split
  · exact hx
  · exact hy

theorem answerFound (found : Option Nat) : SameResponse (s.answerFound found) (s'.answerFound found) := by
  cases found with
  | none => exact .answers
  | some key => exact .answers

theorem withMixFn {test : Except Cause MixFn} {g g' : MixFn → Result} (hg : ∀ f, SameResponse (g f) (g' f)) :
    SameResponse (s.withMixFn test g) (s'.withMixFn test g') := by
  cases test with
  | error c => exact .raises
  | ok f => exact hg f

/-- The shared tests look at which registers there are, at whether `L[b]` is valid and at the keystream. -/
theorem withSearched {b : Nat} {r r' : Reg} {f f' : Reg → BitSeq → Result} (hparams : s'.params = s.params)
    (hks : s'.ks = s.ks) (hr : s.reg b = some r) (hr' : s'.reg b = some r')
    (hf : ∀ ks, SameResponse (f r ks) (f' r' ks)) : SameResponse (s.withSearched b f) (s'.withSearched b f') := by
  simp only [State.withSearched, State.withSource, State.NoRegister, hparams, hr, hr']
  refine .ite .raises ?_
  rw [hks]
  cases s.ks with
  | none => exact .raises
  | some ks => exact hf ks

end SameResponse

/-- A register that holds a triple exists, so a write of it is read back. -/
theorem State.reg_setReg_of_some {s : State} {b : Nat} {r : Reg} (hr : s.reg b = some r) (r' : Reg) :
    (s.setReg b r').reg b = some r' := by
  obtain ⟨hb, -⟩ := List.getElem?_eq_some_iff.mp (Option.join_eq_some_iff.mp hr)
  exact s.reg_setReg_self b r' hb

/-- `BRUTE` overwrites the lane that it searches, so it does not read it. -/
theorem substituteLane_set (lanes : List Reg) (f : MixFn) (a : Nat) (c : Reg) :
    substituteLane (lanes.set a c) f a = substituteLane lanes f a :=
  funext fun _ => Prod.ext (List.set_set ..) rfl

section
variable {b : Nat} {s : State} {r r' : Reg} (hr : s.reg b = some r) (hsize : r'.size = r.size)
  (hmask : r'.mask = r.mask)
include hr hsize hmask

theorem exec_guess_setReg : SameResponse (exec (.guess b) s) (exec (.guess b) (s.setReg b r')) := by
  rw [exec_guess, exec_guess]
  refine .withSearched rfl rfl hr (State.reg_setReg_of_some hr r') fun ks => ?_
  rw [hsize, hmask]
  exact .answers

theorem exec_brute_setReg_setLanes (a : Nat) (c : Reg) :
    SameResponse (exec (.brute a b) s) (exec (.brute a b) ((s.setReg b r').setLanes (s.lanes.set a c))) := by
  have hlen : (s.lanes.set a c).length = s.lanes.length := List.length_set
  rw [exec_brute, exec_brute]
  refine .withSearched rfl rfl hr (State.reg_setReg_of_some hr r') fun ks => ?_
  rw [State.bruteLane, State.bruteLane,
    State.applicable_congr (t := (s.setReg b r').setLanes (s.lanes.set a c)) hlen rfl]
  refine .withMixFn fun f => ?_
  simp only [State.NoLane, State.count_eq, State.setLanes_lanes, hlen, substituteLane_set, hsize, hmask]
  exact .ite .raises (.answerFound _)

end

/-- Settles O58: the tests and the searches read the same of both states. -/
theorem searchesIgnoreTheReplacedKey : Obligations.SearchesIgnoreTheReplacedKey :=
  fun a _ _ _ _ _ c hr hsize hmask =>
    ⟨(exec_guess_setReg hr hsize hmask).exists_next, (exec_brute_setReg_setLanes hr hsize hmask a c).exists_next⟩

end Sys2Proof.Machine
end

section
/-! PROOFS. The System family's two commands that change no state but the response (44_system.md R260, R261). -/

namespace Sys2Proof.Machine

/-- A valid bit placed in a word: nothing where the content is invalid, the place's weight where it is valid. -/
theorem bitVal_isSome_mul {α : Type} (o : Option α) [Decidable (o = none)] (weight : Nat) :
    bitVal o.isSome * weight = if o = none then 0 else weight := by
  cases o with
  | none => exact (Nat.zero_mul weight).trans (if_pos rfl).symm
  | some v => exact (Nat.one_mul weight).trans (if_neg (Option.some_ne_none v)).symm

/-- `STAT`'s flags by the contents whose valid bits they are (10_state.md R42, 44_system.md R261). -/
theorem State.statFlags_eq (s : State) :
    s.statFlags = (if s.mix = none then 0 else 1) + (if s.ks = none then 0 else 2) + (if s.seq = none then 0 else 4) +
      256 * s.lanes.length := by
  simp only [State.statFlags, State.mixSet, State.ksValid, State.seqValid, bitVal_isSome_mul, State.count_eq,
    Nat.mul_comm s.lanes.length, Nat.reducePow]

theorem exec_nop (s : State) : exec .nop s = respond 0 0 0 s := rfl

theorem exec_stat (s : State) : exec .stat s = respond s.fault.toNat s.faultCw.toNat s.statFlags s := rfl

/-- Settles O23: neither command has a test, and `STAT`'s third word is the flags. -/
theorem nopAndStatAnswer : Obligations.NopAndStatAnswer := by
  refine ⟨encode_eq_ofNat .nop, encode_eq_ofNat .stat, fun s => ⟨?_, ?_⟩⟩
  · rw [exec_nop, respond_eq, State.answered]
  · rw [exec_stat, respond_eq, State.answered, State.statFlags_eq]

end Sys2Proof.Machine
end

section
/-! PROOFS. Faults and their record (60_exceptions.md R275, R280, R281, R285), and the idle step (R295). -/

namespace Sys2Proof.Machine

/-! ### What a fault is to a command (60_exceptions.md R280, R285) -/

/-- A response is that of a fault of the command's row, and then the state is the one of fault entry, or it is `OK`. -/
theorem exec_resp_cases {i : Instr} {s t : State} {r : Response} (hexec : exec i s = .next t)
    (hresp : t.resp = some r) :
    (∃ c ∈ mayRaise i, t = s.faulted c ∧ r = ⟨c.code, 0, 0, 0⟩) ∨ r.status = 0 := by
  obtain ⟨c, hmem, hc⟩ | ⟨u, r0, r1, r2, hu, -⟩ := exec_cases i s
  · obtain rfl : s.faulted c = t := Host.Outcome.next.inj (hc.symm.trans hexec)
    exact .inl ⟨c, hmem, rfl, (Option.some.inj hresp).symm⟩
  · obtain rfl : u.answered r0 r1 r2 = t := Host.Outcome.next.inj (hu.symm.trans hexec)
    exact .inr (congrArg Response.status (Option.some.inj hresp)).symm

/-- Settles O14: the codes are evaluated, and a response that is not `OK` is that of a fault entered. -/
theorem faultChangesOnlyTheFaultRecord : Obligations.FaultChangesOnlyTheFaultRecord := by
  refine ⟨by decide, fun i s t r hexec hresp hstatus => ?_⟩
  obtain ⟨c, -, rfl, rfl⟩ | hok := exec_resp_cases hexec hresp
  · rfl
  · exact absurd hok hstatus

/-- Settles O16: a response that is not `OK` is that of a fault of the command's row. -/
theorem faultsFollowTheMatrix : Obligations.FaultsFollowTheMatrix := by
  intro i s t r hexec hresp
  obtain ⟨c, hmem, -, rfl⟩ | hok := exec_resp_cases hexec hresp
  · exact .inr ⟨c, hmem, rfl⟩
  · exact .inl hok

/-! ### The fault record steers no command (60_exceptions.md R281) -/

/-- Outcomes that agree, from states that differ in the fault record and the last response, leave states that differ in
the fault record alone: the outcome brings its own response. -/
theorem SameOutcome.exists_eq_but_record {s t : State} {f : StatusCode} {w : CommandWord} {r : Option Response}
    {res : Result} (h : SameOutcome s (s.withRecord f w r) (.next t) res) :
    ∃ u, res = .next u ∧ u.withRecord t.fault t.faultCw u.resp = t := by
  generalize hres : Host.Outcome.next t = res₀ at h
  cases h with
  | raises c =>
    obtain rfl := Host.Outcome.next.inj hres
    exact ⟨_, raise_eq c _, rfl⟩
  | answers =>
    obtain rfl := Host.Outcome.next.inj hres
    exact ⟨_, respond_eq _ _ _ _, rfl⟩

/-- Settles O19: `STAT` changes the response alone, and no other command looks at the record. -/
theorem faultRecordSteersNoCommand : Obligations.FaultRecordSteersNoCommand := by
  intro i s t f w hexec
  by_cases hstat : i = .stat
  · subst hstat
    obtain rfl := Host.Outcome.next.inj hexec
    exact ⟨_, exec_stat _, fun hne => absurd rfl hne, fun _ => rfl⟩
  · obtain ⟨u, hu, heq⟩ := (hexec ▸ exec_withRecord s f w s.resp hstat).exists_eq_but_record
    exact ⟨u, hu, fun _ => heq, fun h => absurd h hstat⟩

/-! ### A step without a command: an illegal word, and no event (60_exceptions.md R275, R295) -/

theorem runPort_of_illegal {s : State} {why : IllegalWord} (h : decode s.port.cw = .illegal why) :
    runPort s = .next (s.faulted .illegalCommand) := by
  rw [runPort, h, raise_eq]

/-- Settles O6: a word of no row is illegal, so the packet on the port enters the fault. -/
theorem illegalWordRaisesIllegalCommand : Obligations.IllegalWordRaisesIllegalCommand := by
  intro s p rest hhost hfits hrows
  obtain ⟨why, hdec⟩ := (illegal_iff_matches_no_row p.cw).mpr hrows
  exact (step_of_fits hhost hfits).trans (runPort_of_illegal hdec)

/-- Settles O7: the step looks at the host's list first. -/
theorem idleBlockHoldsItsState : Obligations.IdleBlockHoldsItsState := by
  intro s hhost
  rw [step, advance, hhost]

end Sys2Proof.Machine
end

section
/-! PROOFS. The three ways to the reset state (70_reset_and_hazards.md R310, 44_system.md R262, 10_state.md R50): the
reset input between commands and during one, and `SRST`. -/

namespace Sys2Proof.Machine

/-- The reset input leaves the reset state with the model's own port and host list kept. -/
theorem State.resetInput_eq (s : State) :
    s.resetInput = { State.resetOf s.params with port := s.port, host := s.host } := rfl

theorem step_of_event {s : State} {e : HostEvent} {rest : List HostEvent} (hhost : s.host = e :: rest) :
    step s = serve e (s.hostLeft rest) := by
  rw [step, advance, hhost]

/-- The one argument for both events that assert the reset input: the event is served by it. -/
theorem step_of_resets {s : State} {e : HostEvent} {rest : List HostEvent} (hhost : s.host = e :: rest)
    (hserve : serve e (s.hostLeft rest) = .next (s.hostLeft rest).resetInput) :
    step s = .next { State.resetOf s.params with host := rest, port := s.port } := by
  rw [step_of_event hhost, hserve, State.resetInput_eq, State.hostLeft_params, State.hostLeft_port,
    State.hostLeft_host]

theorem exec_srst (s : State) : exec .srst s = respond 0 0 0 s.cleared := rfl

/-- Settles O8: both reset events are served by the reset input, and `SRST` answers from the cleared state; by its
equation, either is the reset state beside the model's own fields. -/
theorem resetInputAndSoftResetGiveTheResetState : Obligations.ResetInputAndSoftResetGiveTheResetState := by
  refine ⟨encode_eq_ofNat .srst, fun s p rest => ⟨?_, ?_, ?_⟩⟩
  · exact fun hhost => step_of_resets hhost rfl
  · exact fun hhost => step_of_resets hhost rfl
  · rw [exec_srst, respond_eq, State.answered, s.cleared_eq]

end Sys2Proof.Machine
end
